-- ==== Sys2Proof/Word.lean ====
section
/-! DEFINITION. The word types of the block: bytes on the data lines and in the client window, 16-bit
countdowns, and the 32-bit RCA (00_scope.md R5, R6). All values are unsigned (R6). -/

namespace Sys2Proof

/-- One byte: one wire phase and one window access (00_scope.md R5 `DATA_W`, 20_memory.md R60). -/
abbrev Byte := BitVec 8

/-- A countdown value (00_scope.md R5 `TIMER_W`). -/
abbrev Count := BitVec 16

/-- A relative address (00_scope.md R5 `ADDR_W`). -/
abbrev Rca := BitVec 32

end Sys2Proof
end

