-- ==== Sys2Proof/Config.lean ====
section
/-! DEFINITION. What an implementation of the block fixes, and the free values of the model: opaque
constants without a body, so that no proof can see what they are (00_scope.md R5 and R7,
93_implementation_defined.md sections 1 and 2). -/

namespace Sys2Proof

/-- The layout of the two snapshot bytes (00_scope.md R5 `SNAPSHOT`): the default of
43_diagnostics.md R203, or another one, which is a free function of `LINES` and `LINK` (log 5). -/
inductive SnapshotLayout
  /-- The default `[LINES, LINK]` of R203. -/
  | linesLink
  /-- Any other two-byte layout: `Config.otherSnapshot`. -/
  | other
  deriving DecidableEq, Repr, Inhabited

/-- The parameters that are fixed when the block is built and that some rule reads (00_scope.md R5).
`CEIL` is held as `CEIL - 1`, so that `CEIL = 0`, which R5 does not admit, is no value of this type
and every value 1..0xFFFF is one (log 3). -/
structure Build where
  /-- `CEIL - 1`; `Build.ceil` is the register's value. -/
  ceilPred : Fin 65535
  /-- `ACK_ON_TIMEOUT` (40_transfer_primitive.md R114, log 4). -/
  ackOnTimeout : Bool
  /-- `SNAPSHOT` (43_diagnostics.md R203, log 5). -/
  snapshot : SnapshotLayout
  deriving DecidableEq, Repr, Inhabited

/-- The three lines whose electrical level is open (00_scope.md R5 `LEVEL_<line>`). -/
inductive Line
  | strobe
  | ack
  | attn
  deriving DecidableEq, Repr

/-- The reserved RCA bands of 20_memory.md R71 outside the diagnostic block. -/
inductive ReservedBand
  | versionQuery
  | setupQuery
  | peerVersionQuery
  | specialMonitorRange
  | specialControlRange
  | monitorRange
  | controlRange
  deriving DecidableEq, Repr

namespace Config

/-- The build parameters of the machine that `State.reset` describes: `CEIL` is OPEN, and
`ACK_ON_TIMEOUT` and `SNAPSHOT` are parameters (00_scope.md R5, logs 3 to 5). -/
opaque build : Build

/-- The free value of the n-th draw when it is a `SampleStrobe()` (00_scope.md R7, log 2). -/
opaque freeStrobe : Nat → Bool

/-- The free value of the n-th draw when it is a `SenseData()` (00_scope.md R7, log 2). -/
opaque freeData : Nat → Byte

/-- The free value of the n-th draw when it is a client read that may return any value
(20_memory.md R64, log 9). -/
opaque freeRead : Nat → Byte

/-- The two snapshot bytes of a layout other than the default, from `LINES` and `LINK`
(43_diagnostics.md R203, log 5). -/
opaque otherSnapshot : Byte → Byte → Byte × Byte

/-- `TICK`, the duration of one strobe poll; no step reads it (70_reset_and_hazards.md R261, log 18). -/
opaque tick : Nat

/-- `ACK_WIDTH`, the duration of the ack pulse; no step reads it (R255, R261, log 18). -/
opaque ackWidth : Nat

/-- The duration of one data leg, which the reply budget of R254 (1) counts beside the polls and the ack
pulses; the spec names no parameter for it, and no step reads it (log 18). -/
opaque dataLegTime : Nat

/-- `REPLY_BUDGET`, about 150 microseconds, in the unit of `tick`; no step reads it (R254, log 18). -/
opaque replyBudget : Nat

/-- `LEVEL_<line>`: the electrical level that means "asserted" (00_scope.md R5, log 18). -/
opaque level : Line → Bool

/-- `DIAG_BASE` (43_diagnostics.md R201, log 18). -/
opaque diagBase : Rca

/-- The other reserved RCAs (20_memory.md R71, log 18). -/
opaque reservedRca : ReservedBand → Rca

end Config

end Sys2Proof
end

