-- ==== Sys2Proof/Syntax.lean ====
section
/-! DEFINITION. The abstract syntax: the nine commands of spec/opcode_table.json, the registers of the
client window (20_memory.md R61), and the lines of a client program (30_encoding.md R98, R99). -/

namespace Sys2Proof

/-- The mode of one exchange, and the `M` bit of XFER: 0 write, 1 read (30_encoding.md R81,
40_transfer_primitive.md R110). -/
inductive Mode
  | write
  | read
  deriving DecidableEq, Repr

/-- The line direction, and the `M` bit of SETDIR: 0 drive, 1 sense (10_state.md R36). -/
inductive Dir
  | drive
  | sense
  deriving DecidableEq, Repr

/-- The `M` bit of FWD: 0 the Monitor-forward handler, 1 the Control-forward handler
(42_dispatch.md R182). -/
inductive FwdEntry
  | monitorForward
  | controlForward
  deriving DecidableEq, Repr

/-- The commands of the block, one constructor per row of the opcode table (30_encoding.md R82). -/
inductive Instr
  /-- `XFER`, one raw byte exchange (40_transfer_primitive.md R118). -/
  | xfer (m : Mode)
  /-- `SETDIR`, set the line direction (R119). -/
  | setdir (d : Dir)
  /-- `SETATTN`, set the attention line (R120). -/
  | setattn (level : Bool)
  /-- `CTRL`, a Control transaction (41_transactions.md R142). -/
  | ctrl
  /-- `MON`, a non-quiet Monitor transaction (R157). -/
  | mon
  /-- `MON_Q`, a quiet Monitor transaction (R158). -/
  | monQ
  /-- `MON_RETRY`, the retrying Monitor entry point (42_dispatch.md R180). -/
  | monRetry
  /-- `FWD`, the forwarding entry point (R182). -/
  | fwd (entry : FwdEntry)
  /-- `DIAG_RD`, a diagnostic reply; `SEL` 5..7 are decoded and rejected by the accept
  (43_diagnostics.md R200, 30_encoding.md R84). -/
  | diagRd (sel : BitVec 3)
  deriving DecidableEq, Repr

/-- The registers of the client window, one value per offset 0x00..0x7F (20_memory.md R61). A flag
`high` picks the high byte of a 16-bit register, which lies at the lower offset (R67). -/
inductive WinReg
  | cmd
  | cmdArg
  | status
  | attempts
  | msgAddr (k : Fin 4)
  | msgDir
  | msgLen
  | xferData
  | rlen
  | link
  | lines
  | xferT (high : Bool)
  | msgBuf (i : Fin 8)
  | ceil (high : Bool)
  | monT (k : Fin 14) (high : Bool)
  | ctlT (k : Fin 13) (high : Bool)
  /-- Offsets 0x1A..0x1F. -/
  | reservedLow (j : Fin 6)
  /-- Offsets 0x3C..0x3F. -/
  | reservedMid (j : Fin 4)
  /-- Offsets 0x5A..0x7F. -/
  | reservedHigh (j : Fin 38)
  deriving DecidableEq, Repr

/-- One line of a client program: the two client operations and the mnemonics that expand into them
(30_encoding.md R98, R99). -/
inductive AsmLine
  | wr (r : WinReg) (imm : Byte)
  | rd (r : WinReg)
  /-- `xfer.w`, with the byte to put into `CMD_ARG` first where one is given. -/
  | xferW (imm : Option Byte)
  | xferR
  | setdir (d : Dir)
  | setattn (level : Bool)
  | ctrl
  | mon
  | monQ
  | monRetry
  | fwd (entry : FwdEntry)
  | diag (s : BitVec 3)
  /-- `ldmsg <dir>, <rca32>, <len>[, b0 .. b(len-1)]`, with `control` true for `ctl`. -/
  | ldmsg (control : Bool) (rca : Rca) (len : Byte) (payload : List Byte)
  /-- `wait`: repeat `rd STATUS` until `DONE` reads 1. -/
  | wait
  deriving DecidableEq, Repr

end Sys2Proof
end

