-- ==== Sys2Proof/WellFormed.lean ====
section
/-! DEFINITION. Which terms of the syntax are legal: the selector of DIAG_RD (30_encoding.md R83, R86)
and the operands of the program mnemonics (R99). -/

namespace Sys2Proof

/-- A command is well formed when its byte is one of the 17 legal bytes of 30_encoding.md R86. The
only field a constructor can hold outside its range is DIAG_RD's selector: 0..4 are legal (R83). -/
def Instr.wf : Instr → Bool
  | .diagRd sel => sel.toNat ≤ 4
  | .xfer _ | .setdir _ | .setattn _ | .ctrl | .mon | .monQ | .monRetry | .fwd _ => true

/-- A register name that 30_encoding.md R98 lists: the reserved offsets have no name. -/
def WinReg.named : WinReg → Bool
  | .reservedLow _ | .reservedMid _ | .reservedHigh _ => false
  | _ => true

/-- A program line is well formed when its registers have names (R98), a `diag` selector is 0..4, and
an `ldmsg` gives at most `len` bytes, each with a `MSG_BUF` register to go to (R99). -/
def AsmLine.wf : AsmLine → Bool
  | .wr r _ => r.named
  | .rd r => r.named
  | .diag s => s.toNat ≤ 4
  | .ldmsg _ _ len payload => payload.length ≤ 8 && payload.length ≤ len.toNat
  | .xferW _ | .xferR | .setdir _ | .setattn _ | .ctrl | .mon | .monQ | .monRetry | .fwd _ | .wait =>
    true

end Sys2Proof
end

