-- ==== Sys2Proof/Decode.lean ====
section
/-! DEFINITION. The command byte CMD8 (30_encoding.md R80 to R86): the decoder, total on every byte and
rejecting by name, and the encoder, both from the field table of R81 and the opcode map of R82. -/

namespace Sys2Proof

/-- Why a byte is no command: the two encoding errors of 30_encoding.md R85 that no constructor of
`Instr` can carry. (The third, BAD_SELECT, is a DIAG_RD whose selector the accept rejects.) -/
inductive EncodingError
  /-- `OP` is 0x0 or 0xA..0xF. -/
  | illegalOp
  /-- A field that must be 0 is not. -/
  | reservedField
  deriving DecidableEq, Repr

/-- Field `OP`, bits 3:0 (R81). -/
def opField (c : Byte) : BitVec 4 := c.extractLsb' 0 4

/-- Field `M`, bit 4 (R81). -/
def mField (c : Byte) : Bool := c.getLsbD 4

/-- Field `SEL`, bits 7:5 (R81). -/
def selField (c : Byte) : BitVec 3 := c.extractLsb' 5 3

/-- The `M` bit as an exchange mode (R81). -/
def modeOfBit (m : Bool) : Mode := if m then .read else .write

/-- The `M` bit as a line direction (R81). -/
def dirOfBit (m : Bool) : Dir := if m then .sense else .drive

/-- The `M` bit as a forward entry (R81). -/
def entryOfBit (m : Bool) : FwdEntry := if m then .controlForward else .monitorForward

/-- A command whose `SEL` must be 0 (R83). -/
def requireSelZero (c : Byte) (i : Instr) : Except EncodingError Instr :=
  if selField c = 0 then .ok i else .error .reservedField

/-- A command whose `M` must be 0 (R83). -/
def requireModeZero (c : Byte) (i : Instr) : Except EncodingError Instr :=
  if mField c then .error .reservedField else .ok i

/-- A command whose `M` and `SEL` must both be 0 (R83). -/
def requireBothZero (c : Byte) (i : Instr) : Except EncodingError Instr :=
  if mField c = false ∧ selField c = 0 then .ok i else .error .reservedField

/-- The decoder of 30_encoding.md R82 to R85: the encoding checks of `Accept` up to the selector
check. -/
def decode (c : Byte) : Except EncodingError Instr :=
  match opField c with
  | 0x1#4 => requireSelZero c (.xfer (modeOfBit (mField c)))
  | 0x2#4 => requireSelZero c (.setdir (dirOfBit (mField c)))
  | 0x3#4 => requireSelZero c (.setattn (mField c))
  | 0x4#4 => requireBothZero c .ctrl
  | 0x5#4 => requireBothZero c .mon
  | 0x6#4 => requireBothZero c .monQ
  | 0x7#4 => requireBothZero c .monRetry
  | 0x8#4 => requireSelZero c (.fwd (entryOfBit (mField c)))
  | 0x9#4 => requireModeZero c (.diagRd (selField c))
  | _ => .error .illegalOp

/-- A command byte from its three fields: `SEL` in bits 7:5, `M` in bit 4, `OP` in bits 3:0 (R81). -/
def cmd8 (op : BitVec 4) (m : Bool) (sel : BitVec 3) : Byte := sel ++ BitVec.ofBool m ++ op

/-- The exchange mode as the `M` bit (R81). -/
def Mode.bit : Mode → Bool
  | .write => false
  | .read => true

/-- The line direction as the `M` bit (R81), and as the register's bit (10_state.md R36). -/
def Dir.bit : Dir → Bool
  | .drive => false
  | .sense => true

/-- The forward entry as the `M` bit (R81). -/
def FwdEntry.bit : FwdEntry → Bool
  | .monitorForward => false
  | .controlForward => true

/-- The encoder: the command byte of an instruction (30_encoding.md R82). -/
def encode : Instr → Byte
  | .xfer m => cmd8 0x1 m.bit 0
  | .setdir d => cmd8 0x2 d.bit 0
  | .setattn level => cmd8 0x3 level 0
  | .ctrl => cmd8 0x4 false 0
  | .mon => cmd8 0x5 false 0
  | .monQ => cmd8 0x6 false 0
  | .monRetry => cmd8 0x7 false 0
  | .fwd e => cmd8 0x8 e.bit 0
  | .diagRd sel => cmd8 0x9 false sel

/-- What the decoder reads from a row of the opcode table: every row has 8 bits, one command byte. -/
def decodeTableWord (_nbits w : Nat) : Option Instr :=
  match decode (BitVec.ofNat 8 w) with
  | .ok i => some i
  | .error _ => none

end Sys2Proof
end

