-- ==== Sys2Proof/Machine/State.lean ====
section
/-! DEFINITION. The state of the block as plain data: everything 10_state.md R20 lists, the two
model-only marks of R43 and R44, the build parameters of 00_scope.md R5, and the model's own record
of what the client and the peer do (logs 1, 2, 15). -/

namespace Sys2Proof.Machine

/-- The error codes of `STATUS.ECODE` (60_exceptions.md R223). -/
inductive ErrCode
  | none
  | illegalOp
  | reservedField
  | badSelect
  | lineState
  | malformedLength
  | peerTimeout
  | protocolViolation
  deriving DecidableEq, Repr

/-- The `STATUS` register, field by field (10_state.md R28). Bit 4 is no field: it reads 0. -/
structure Status where
  busy : Bool
  done : Bool
  ok : Bool
  /-- `TO`. -/
  timeout : Bool
  ecode : ErrCode
  deriving DecidableEq, Repr

/-- `MSG_DIR`: 0 Monitor, 1 Control (10_state.md R23). -/
inductive MsgDir
  | monitor
  | control
  deriving DecidableEq, Repr

/-- `LINK`: the three legal values (10_state.md R33). -/
inductive LinkState
  | notReady
  | ready
  | initialized
  deriving DecidableEq, Repr

/-- The wire events of 00_scope.md R8. -/
inductive WireEvent
  | attnOn
  | attnOff
  | dirDrive
  | dirSense
  | drive (b : Byte)
  | sense (b : Byte)
  | ackPulse
  | poll (s : Bool)
  | reset
  deriving DecidableEq, Repr

/-- `PH` in a Control transaction: `A0`..`A3`, `LEN`, `P0`..`P7` (10_state.md R40). -/
inductive CtlPhase
  | addr (k : Fin 4)
  | len
  | payload (i : Fin 8)
  deriving DecidableEq, Repr

/-- `PH` in a Monitor transaction: `A0`..`A3`, `RQL`, `RSL`, `P0`..`P7` (10_state.md R40). -/
inductive MonPhase
  | addr (k : Fin 4)
  | rql
  | rsl
  | payload (i : Fin 8)
  deriving DecidableEq, Repr

/-- The commands that run a Control transaction (41_transactions.md R142, 42_dispatch.md R182). -/
inductive CtlCmd
  | ctrl
  | fwd (entry : FwdEntry)
  deriving DecidableEq, Repr

/-- The commands that run Monitor transactions (41_transactions.md R157, R158, 42_dispatch.md R180,
R182). -/
inductive MonCmd
  | mon
  | monQ
  | monRetry
  | fwd (entry : FwdEntry)
  deriving DecidableEq, Repr

/-- `SEQ` and `PH` in one value (10_state.md R40): `IDLE`, or the running command with the phase in
progress. FWD's choice, made at the accept from `MSG_DIR`, is the choice of constructor (log 8). -/
inductive Seq
  | idle
  /-- `RUN(XFER)`, `PH = X`. -/
  | xfer (m : Mode)
  | control (c : CtlCmd) (ph : CtlPhase)
  | monitor (c : MonCmd) (ph : MonPhase)
  deriving DecidableEq, Repr

/-- What may happen next outside the block's own pseudocode: the moves of the client, of the reset
trigger and of the scheduler (00_scope.md R10, log 1). -/
inductive Move
  /-- The block takes its next step; an idle block takes none. -/
  | block
  /-- `MemRead(off, width)` (20_memory.md R60). -/
  | read (off width : Nat)
  /-- `MemWrite(off, width, v)` (20_memory.md R60). -/
  | write (off width : Nat) (v : Byte)
  /-- The client's `wait`: the block goes on until `DONE = 1` (30_encoding.md R99). -/
  | await
  /-- The reset event (70_reset_and_hazards.md R250). -/
  | reset
  deriving DecidableEq, Repr

/-- The state of the machine. INVENTORY.md lists each field with its rule and its reset value. -/
structure State where
  -- the message registers (10_state.md R22 to R25)
  msgAddr : Rca
  msgDir : MsgDir
  msgLen : Byte
  msgBuf : Vector Byte 8
  -- the command and status registers (R26 to R33); `LINES` (R34) and `CEIL` (R35) are views
  cmd : Byte
  cmdArg : Byte
  status : Status
  attempts : Byte
  xferData : Byte
  rlen : Byte
  xferT : Count
  link : LinkState
  -- the output lines (R36)
  dout : Byte
  dir : Dir
  attn : Bool
  ack : Bool
  -- the phase timer arrays (R38, R39)
  monT : Vector Count 14
  ctlT : Vector Count 13
  -- the sequencer (R40, R41)
  seq : Seq
  tmr : Count
  la : Rca
  ll : Byte
  q : Bool
  tof : Bool
  -- the model-only observation and mark of the spec (R43, R44), the trace oldest event first
  trace : List WireEvent
  refused : Bool
  -- the build parameters (00_scope.md R5)
  build : Build
  -- the model's own: the coming moves, the peer's coming draws, the draw counter, the client's reads
  agenda : List Move
  strobes : List Bool
  dins : List Byte
  draws : Nat
  reads : List (Nat × Byte)
  deriving DecidableEq, Repr

/-- Reasons for a fault: there are none. The block has no fault and no stuck case
(93_implementation_defined.md, opening; 60_exceptions.md R220 and R226): a command ends by `Reject` or
`finish`, which are next states, so nothing in the model raises a fault (safe). -/
inductive Fault : Type
  deriving DecidableEq, Repr

/-- Reasons for a refusal. What the spec itself calls refused is the mark `REFUSED` of State
(10_state.md R44), a next state, and no refusal of this type. -/
inductive Refusal
  /-- An instruction that has no meaning in the model: raised by `exec` alone, for an arm that is not
  written yet; no arm of this model raises it (safe: the model stops). -/
  | notModelled (mnemonic : String)
  deriving DecidableEq, Repr

/-- The initial (power-on) state: the reset state with an empty trace and `REFUSED = false`
(70_reset_and_hazards.md R250, R251). The hidden registers `TMR`, `LA`, `LL`, `Q` and `TOF`, which the
spec leaves unspecified and unobservable, hold zero (DESIGN CHOICE, log 6); the model's own fields
hold what logs 1, 2, 15 and 21 say. -/
def State.reset : State where
  msgAddr := 0
  msgDir := .monitor
  msgLen := 0
  msgBuf := Vector.replicate 8 0
  cmd := 0
  cmdArg := 0
  status := { busy := false, done := false, ok := false, timeout := false, ecode := .none }
  attempts := 0
  xferData := 0
  rlen := 0
  xferT := 0
  link := .notReady
  dout := 0
  dir := .drive
  attn := false
  ack := false
  monT := Vector.replicate 14 0
  ctlT := Vector.replicate 13 0
  seq := .idle
  tmr := 0
  la := 0
  ll := 0
  q := false
  tof := false
  trace := []
  refused := false
  build := Config.build
  agenda := []
  strobes := []
  dins := []
  draws := 0
  reads := []

end Sys2Proof.Machine
end

