-- ==== Sys2Proof/Machine/Flags.lean ====
section
/-! DEFINITION. The `STATUS` register: its byte (10_state.md R28) and every update of its fields
(30_encoding.md R84, 60_exceptions.md R221 and R222, 40_transfer_primitive.md R110). -/

namespace Sys2Proof.Machine

/-- The 3-bit code of an error (60_exceptions.md R223). -/
def ErrCode.code : ErrCode → BitVec 3
  | .none => 0
  | .illegalOp => 1
  | .reservedField => 2
  | .badSelect => 3
  | .lineState => 4
  | .malformedLength => 5
  | .peerTimeout => 6
  | .protocolViolation => 7

/-- What `STATUS` reads as: `BUSY` bit 0, `DONE` bit 1, `OK` bit 2, `TO` bit 3, bit 4 zero, `ECODE` bits
7:5 (10_state.md R28). -/
def Status.byte (st : Status) : Byte :=
  st.ecode.code ++ 0#1 ++ BitVec.ofBool st.timeout ++ BitVec.ofBool st.ok ++ BitVec.ofBool st.done ++
    BitVec.ofBool st.busy

/-- `STATUS` after an accept: `BUSY = 1` and every other field 0 (30_encoding.md R84). -/
def Status.accepted : Status :=
  { busy := true, done := false, ok := false, timeout := false, ecode := .none }

/-- `STATUS` after `Reject(code)` (60_exceptions.md R221). -/
def Status.rejected (code : ErrCode) : Status :=
  { busy := false, done := true, ok := false, timeout := false, ecode := code }

/-- `STATUS` after `finish(ok, code)`: `TO` keeps what the phases left (60_exceptions.md R222). -/
def Status.finished (st : Status) (ok : Bool) (code : ErrCode) : Status :=
  { st with busy := false, done := true, ok := ok, ecode := code }

/-- `STATUS` after a phase timed out: `TO <- 1` (40_transfer_primitive.md R110). -/
def Status.markTimeout (st : Status) : Status := { st with timeout := true }

end Sys2Proof.Machine
end

