-- ==== Sys2Proof/Machine/Operands.lean ====
section
/-! DEFINITION. Bit fields and byte orders (00_scope.md R6, 20_memory.md R67), the views `CEIL`, `LINES`
and `LINK`, and the operands of the phases and of the commands (30_encoding.md R87, R90, R91). -/

namespace Sys2Proof.Machine

/-! ### Bytes of words -/

/-- Byte `k` of a 32-bit value, `v[8k+7:8k]` (00_scope.md R6). -/
def byteOf (v : Rca) (k : Fin 4) : Byte := v.extractLsb' (8 * k.val) 8

/-- `v` with byte `k` replaced, as a one-byte write to `MSG_ADDR` does (10_state.md R22). -/
def setByteOf (v : Rca) (k : Fin 4) (b : Byte) : Rca :=
  (v &&& ~~~(0xFF#32 <<< (8 * k.val))) ||| (b.setWidth 32 <<< (8 * k.val))

/-- The high byte of a 16-bit value (00_scope.md R6). -/
def hiByte (v : Count) : Byte := v.extractLsb' 8 8

/-- The low byte of a 16-bit value (00_scope.md R6). -/
def loByte (v : Count) : Byte := v.extractLsb' 0 8

/-- One byte of a big-endian 16-bit register, by the flag of `WinReg` (20_memory.md R67). -/
def halfByte (v : Count) (high : Bool) : Byte := if high then hiByte v else loByte v

/-- `BE16(v)`, high byte first (00_scope.md R6). -/
def be16 (v : Count) : List Byte := [hiByte v, loByte v]

/-- `LE32(v)`, byte 0 first (00_scope.md R6). -/
def le32 (v : Rca) : List Byte := [byteOf v 0, byteOf v 1, byteOf v 2, byteOf v 3]

end Sys2Proof.Machine

namespace Sys2Proof

/-! ### Build parameters -/

/-- The value of `CEIL`, 1..0xFFFF (00_scope.md R5, 10_state.md R35). -/
def Build.ceil (b : Build) : Count := BitVec.ofNat 16 (b.ceilPred.val + 1)

/-- The build of given parameters: a ceiling outside 1..0xFFFF, 0 among them, is refused
(00_scope.md R5, 93_implementation_defined.md I14). -/
def Build.ofParameters (ceil : Nat) (ackOnTimeout : Bool) (snapshot : SnapshotLayout) :
    Option Build :=
  if h : 1 ≤ ceil ∧ ceil ≤ 0xFFFF then
    some { ceilPred := ⟨ceil - 1, by omega⟩, ackOnTimeout := ackOnTimeout, snapshot := snapshot }
  else none

/-- The RCA that a diagnostic selector stands for, `DIAG_BASE + s` (43_diagnostics.md R201). The block
never compares an RCA with it (20_memory.md R71). -/
def Config.diagRca (sel : BitVec 3) : Rca := Config.diagBase + sel.setWidth 32

end Sys2Proof

namespace Sys2Proof.Machine

/-! ### Views of registers -/

/-- `CEIL` as the block reads it (10_state.md R35). -/
def State.ceil (s : State) : Count := s.build.ceil

/-- The encoding of `MSG_DIR` (10_state.md R23). -/
def MsgDir.bit : MsgDir → Bool
  | .monitor => false
  | .control => true

/-- The direction a written bit names: bit 0 alone counts (10_state.md R23). -/
def MsgDir.ofByte (v : Byte) : MsgDir := if v.getLsbD 0 then .control else .monitor

/-- The encoding of `LINK` (10_state.md R33). -/
def LinkState.code : LinkState → BitVec 2
  | .notReady => 0
  | .ready => 1
  | .initialized => 2

/-- `LINK` after a client write of `v` over `old`: bits 1:0, and the value 3 is ignored
(10_state.md R33). -/
def LinkState.written (old : LinkState) (v : Byte) : LinkState :=
  match v.extractLsb' 0 2 with
  | 0#2 => .notReady
  | 1#2 => .ready
  | 2#2 => .initialized
  | _ => old

/-- A single bit as a window byte whose other bits read 0. -/
def bitByte (b : Bool) : Byte := (BitVec.ofBool b).setWidth 8

/-- The byte `LINK` reads as (10_state.md R33). -/
def State.linkByte (s : State) : Byte := s.link.code.setWidth 8

/-- The byte `LINES` reads as, given the live STROBE sample: `ATTN` bit 0, `DIR` bit 1, STROBE bit 2,
`ACK` bit 3, bits 7:4 zero (10_state.md R34). -/
def State.linesByte (s : State) (strobe : Bool) : Byte :=
  0#4 ++ BitVec.ofBool s.ack ++ BitVec.ofBool strobe ++ BitVec.ofBool s.dir.bit ++
    BitVec.ofBool s.attn

/-! ### The operands of the phases -/

/-- The slot of a Control phase in `CTL_T` (10_state.md R39). -/
def CtlPhase.slot : CtlPhase → Fin 13
  | .addr k => ⟨k.val, by omega⟩
  | .len => 4
  | .payload i => ⟨5 + i.val, by omega⟩

/-- The slot of a Monitor phase in `MON_T` (10_state.md R38). -/
def MonPhase.slot : MonPhase → Fin 14
  | .addr k => ⟨k.val, by omega⟩
  | .rql => 4
  | .rsl => 5
  | .payload i => ⟨6 + i.val, by omega⟩

/-- The address phase after address phase `k`, none after `A3` (10_state.md R40). -/
def nextAddr (k : Fin 4) : Option (Fin 4) :=
  if h : k.val + 1 < 4 then some ⟨k.val + 1, h⟩ else none

/-- The first payload index of a payload of length `n`, none when it is empty. -/
def firstPayload (n : Byte) : Option (Fin 8) := if n = 0 then none else some 0

/-- The payload index after `i` in a payload of length `n` (41_transactions.md R142, R150). A length
above 8 is met in no run; the buffer's end then ends the payload (log 25). -/
def nextPayload (i : Fin 8) (n : Byte) : Option (Fin 8) :=
  if h : i.val + 1 < 8 then
    if i.val + 1 < n.toNat then some ⟨i.val + 1, h⟩ else none
  else none

/-- The mode of the exchange that a phase makes (41_transactions.md R142, R150). The value while idle
is read by nothing. -/
def Seq.mode : Seq → Mode
  | .idle => .write
  | .xfer m => m
  | .control _ _ => .write
  | .monitor _ (.addr _) => .write
  | .monitor _ .rql => .write
  | .monitor _ .rsl => .read
  | .monitor _ (.payload _) => .read

/-- The byte a write phase sends: the latched RCA's bytes, the latched length, the payload byte, or
`CMD_ARG` (30_encoding.md R87, R90, R91). The value in a read phase is read by nothing. -/
def State.byteOut (s : State) : Byte :=
  match s.seq with
  | .idle => 0
  | .xfer _ => s.cmdArg
  | .control _ (.addr k) => byteOf s.la k
  | .control _ .len => s.ll
  | .control _ (.payload i) => s.msgBuf[i]
  | .monitor _ (.addr k) => byteOf s.la k
  | .monitor _ .rql => s.ll
  | .monitor _ .rsl => 0
  | .monitor _ (.payload _) => 0

/-- The command that a Control transaction is part of. -/
def CtlCmd.instr : CtlCmd → Instr
  | .ctrl => .ctrl
  | .fwd e => .fwd e

/-- The command that a Monitor transaction is part of. -/
def MonCmd.instr : MonCmd → Instr
  | .mon => .mon
  | .monQ => .monQ
  | .monRetry => .monRetry
  | .fwd e => .fwd e

/-- `cmd` where `SEQ = RUN(cmd)`, none while `IDLE` (10_state.md R40). -/
def Seq.command : Seq → Option Instr
  | .idle => none
  | .xfer m => some (.xfer m)
  | .control c _ => some c.instr
  | .monitor c _ => some c.instr

/-- Whether a failed first attempt is followed by a second one: in MON_RETRY and in FWD on a Monitor
message (42_dispatch.md R180, R182). -/
def MonCmd.retries : MonCmd → Bool
  | .mon => false
  | .monQ => false
  | .monRetry => true
  | .fwd _ => true

/-! ### The operands of the commands -/

/-- `DiagValues(sel)`, the four values of a timer reply (43_diagnostics.md R201, R202). Selectors past 3
have no timer reply; the value given for them is read by nothing. -/
def State.diagValues (s : State) (sel : BitVec 3) : Vector Count 4 :=
  match sel with
  | 0#3 => #v[s.monT[0], s.monT[1], s.monT[2], s.monT[3]]
  | 1#3 => #v[s.monT[4], s.monT[5], s.monT[6], s.ceil]
  | 2#3 => #v[s.ctlT[0], s.ctlT[1], s.ctlT[2], s.ctlT[3]]
  | 3#3 => #v[s.ctlT[4], s.ctlT[5], s.ctlT[6], s.ceil]
  | _ => #v[0, 0, 0, 0]

/-- The eight bytes of a timer reply: four big-endian values (30_encoding.md R95,
43_diagnostics.md R200). -/
def diagBytes (v : Vector Count 4) : Vector Byte 8 :=
  #v[hiByte v[0], loByte v[0], hiByte v[1], loByte v[1],
     hiByte v[2], loByte v[2], hiByte v[3], loByte v[3]]

/-- The two bytes of the status snapshot, given the live STROBE sample (43_diagnostics.md R203): the
default layout `[LINES, LINK]`, or a free function of the two (log 5). -/
def State.snapshotBytes (s : State) (strobe : Bool) : Byte × Byte :=
  match s.build.snapshot with
  | .linesLink => (s.linesByte strobe, s.linkByte)
  | .other => Config.otherSnapshot (s.linesByte strobe) s.linkByte

end Sys2Proof.Machine
end

