-- ==== Sys2Proof/Machine/Ops.lean ====
section
/-! DEFINITION. The shared operations of the block: draws, wire events and lines, the exchange
micro-operation (40_transfer_primitive.md R110 to R117), the request latch and the start of a phase
(41_transactions.md R140, R141), and the ways a command is accepted, rejected and ended
(30_encoding.md R84, 60_exceptions.md R221, R222), which stand in the place of trap entry and return
(60_exceptions.md R226, R228). -/

namespace Sys2Proof.Machine

/-! ### Draws (00_scope.md R7, log 2) -/

/-- `SampleStrobe()`: the peer's next STROBE sample, a free value when its list is used up. -/
def State.strobe (s : State) : Bool :=
  match s.strobes with
  | b :: _ => b
  | [] => Config.freeStrobe s.draws

/-- The state after `SampleStrobe()`: the sample is used up. -/
def State.strobeTaken (s : State) : State :=
  match s.strobes with
  | _ :: rest => { s with strobes := rest }
  | [] => { s with draws := s.draws + 1 }

/-- `SenseData()`: the data lines at the capture point, a free value when the list is used up. -/
def State.din (s : State) : Byte :=
  match s.dins with
  | b :: _ => b
  | [] => Config.freeData s.draws

/-- The state after `SenseData()`: the sample is used up. -/
def State.dinTaken (s : State) : State :=
  match s.dins with
  | _ :: rest => { s with dins := rest }
  | [] => { s with draws := s.draws + 1 }

/-! ### Wire events and lines -/

/-- `emit e` (00_scope.md R8). -/
def State.emit (s : State) (e : WireEvent) : State := { s with trace := s.trace ++ [e] }

/-- `x[ATTN] <- 1; emit AttnOn`. -/
def State.attnOn (s : State) : State := { s with attn := true }.emit .attnOn

/-- `x[ATTN] <- 0; emit AttnOff`. -/
def State.attnOff (s : State) : State := { s with attn := false }.emit .attnOff

/-- `x[DIR] <- drive; emit DirDrive`. -/
def State.dirDrive (s : State) : State := { s with dir := .drive }.emit .dirDrive

/-- `x[DIR] <- sense; emit DirSense`. -/
def State.dirSense (s : State) : State := { s with dir := .sense }.emit .dirSense

/-- `PulseAck()`: `x[ACK] <- 1; x[ACK] <- 0; emit AckPulse`, within one step
(40_transfer_primitive.md R113). -/
def State.pulseAck (s : State) : State :=
  let raised := { s with ack := true }
  { raised with ack := false }.emit .ackPulse

/-! ### The ways a command begins and ends -/

/-- A client action that the block's contract forbids: the mark `REFUSED` is set and nothing else
happens (10_state.md R44, 20_memory.md R60, R64). -/
def State.refuseAccess (s : State) : State := { s with refused := true }

/-- `Reject(code)`, the accept-time end of a command (60_exceptions.md R221). It changes `STATUS`,
`ATTEMPTS` and `SEQ` alone; `LA` and `LL` keep what they hold (log 7). -/
def State.reject (s : State) (code : ErrCode) : State :=
  { s with status := Status.rejected code, attempts := 0, seq := .idle }

/-- `finish(ok, code)`, the normal end of a command (60_exceptions.md R222). -/
def State.finish (s : State) (ok : Bool) (code : ErrCode) : State :=
  { s with status := s.status.finished ok code, seq := .idle }

/-- `x[CMD] <- c`, the first thing an accept does (30_encoding.md R84, 10_state.md R26). -/
def State.takeCommand (s : State) (c : Byte) : State := { s with cmd := c }

/-- The state in which the rule of an accepted command begins: `CMD` holds its byte, `STATUS` shows
`BUSY` alone, and `ATTEMPTS` is 0 (30_encoding.md R84). -/
def State.accepted (s : State) (i : Instr) : State :=
  { s with cmd := encode i, status := Status.accepted, attempts := 0 }

/-- `Accept` of a command (30_encoding.md R84): a busy block refuses the write and does not decode it
(20_memory.md R64); otherwise `CMD` takes the byte, `check` is the first of the command's own accept
checks that fails, and with none failing `rule`, the command's rule up to its first strobe poll or its
end, runs in the same step. -/
def State.accept (s : State) (i : Instr) (check : Option ErrCode) (rule : State → State) :
    Host.Outcome State Fault Refusal :=
  if s.status.busy then .next s.refuseAccess
  else
    match check with
    | some code => .next ((s.takeCommand (encode i)).reject code)
    | none => .next (rule (s.accepted i))

/-- A `CMD` write of a byte that is no command: the same accept, ended by the byte's own encoding
error (30_encoding.md R84, R85). -/
def State.acceptIllegal (s : State) (c : Byte) (e : EncodingError) : State :=
  if s.status.busy then s.refuseAccess
  else
    match e with
    | .illegalOp => (s.takeCommand c).reject .illegalOp
    | .reservedField => (s.takeCommand c).reject .reservedField

/-- The accept check of XFER: the direction must match the mode (30_encoding.md R84). -/
def State.xferCheck (s : State) (m : Mode) : Option ErrCode :=
  match m, s.dir with
  | .write, .drive => none
  | .read, .sense => none
  | .write, .sense => some .lineState
  | .read, .drive => some .lineState

/-- The accept checks of a transaction command, in their order: the lines at their default, then the
message length (30_encoding.md R84, 60_exceptions.md R224). -/
def State.txnCheck (s : State) : Option ErrCode :=
  if s.dir ≠ .drive ∨ s.attn = true then some .lineState
  else if s.msgLen.toNat > 8 then some .malformedLength
  else none

/-- `Latch()`, the request latch (41_transactions.md R140). -/
def State.latch (s : State) : State := { s with la := s.msgAddr, ll := s.msgLen }

/-! ### The exchange micro-operation (40_transfer_primitive.md R110) -/

/-- The start of a phase up to its first poll: `PH` names it and `TMR <- CEIL` (R110,
41_transactions.md R141). -/
def State.startPhase (s : State) (place : Seq) : State := { s with seq := place, tmr := s.ceil }

/-- Whether the phase that ends now saw the strobe: `ok <- (TMR != 0)` (R110, R111 (d)). -/
def State.phaseOk (s : State) : Bool := s.tmr ≠ 0

/-- Whether a phase performs its data leg and its ack pulse: after a timeout only with
`ACK_ON_TIMEOUT` (R110, R114). -/
def State.legPerformed (s : State) : Bool := s.phaseOk || s.build.ackOnTimeout

/-- The byte `v` that a phase captures, none in a write phase and where the leg is not performed
(R110). -/
def State.captured (s : State) : Option Byte :=
  match s.seq.mode with
  | .write => none
  | .read => if s.legPerformed then some s.din else none

/-- `x[DOUT] <- b; emit Drive(b)` (R112). -/
def State.driveByte (s : State) (b : Byte) : State := { s with dout := b }.emit (.drive b)

/-- The capture of the byte on the data lines: `emit Sense(v)`, the sample used up (R112). -/
def State.senseByte (s : State) : State := s.dinTaken.emit (.sense s.din)

/-- `x[STATUS].TO <- 1` (R110). -/
def State.markTimeout (s : State) : State := { s with status := s.status.markTimeout }

/-- `TMR <- TMR - 1` (R110). It is executed with a `TMR` of at least 1 in every run (log 10). -/
def State.countDown (s : State) : State := { s with tmr := s.tmr - 1 }

/-- Steps (2) and (3) of an exchange: drive or capture the byte, then pulse ACK (R112, R113). -/
def State.dataLeg (s : State) : State :=
  match s.seq.mode with
  | .write => (s.driveByte s.byteOut).pulseAck
  | .read => s.senseByte.pulseAck

/-- The end of an exchange, after the last poll: `TO` on a timeout, then the data leg and the ack pulse
where they are performed (R110). -/
def State.endExchange (s : State) : State :=
  let marked := if s.phaseOk then s else s.markTimeout
  if s.legPerformed then marked.dataLeg else marked

/-- One strobe poll: sample, record the poll, and on a failed sample count down (R110). -/
def State.pollStrobe (s : State) : State :=
  let polled := s.strobeTaken.emit (.poll s.strobe)
  if s.strobe then polled else polled.countDown

/-- Whether the poll that `s` is about to make ends its phase: the strobe is seen, or the countdown
reaches 0 (R110). -/
def State.pollEnds (s : State) : Bool := s.strobe || s.tmr - 1 = 0

end Sys2Proof.Machine
end

