-- ==== Sys2Proof/Machine/Primitive.lean ====
section
/-! DEFINITION. The raw line commands XFER, SETDIR and SETATTN (40_transfer_primitive.md R118 to
R120), and the end of XFER's phase. -/

namespace Sys2Proof.Machine

/-- `XFER` (R118): the accept checks the direction, then the phase `X` starts. -/
def execXfer (m : Mode) (s : State) : Host.Outcome State Fault Refusal :=
  s.accept (.xfer m) (s.xferCheck m) fun t => t.startPhase (.xfer m)

/-- `SETDIR` (R119): the direction is set and its event emitted, also when the register already has
the value; no poll. -/
def execSetdir (d : Dir) (s : State) : Host.Outcome State Fault Refusal :=
  s.accept (.setdir d) none fun t =>
    match d with
    | .drive => t.dirDrive.finish true .none
    | .sense => t.dirSense.finish true .none

/-- `SETATTN` (R120): the attention line is set and its event emitted; no poll. -/
def execSetattn (level : Bool) (s : State) : Host.Outcome State Fault Refusal :=
  s.accept (.setattn level) none fun t =>
    if level then t.attnOn.finish true .none else t.attnOff.finish true .none

/-- `x[XFER_DATA] <- v` where a byte was captured, and `x[XFER_T] <- t` (R118). -/
def State.recordXfer (s : State) (v : Option Byte) : State :=
  { s with xferData := v.getD s.xferData, xferT := s.tmr }

/-- The end of XFER after its exchange (R118): a captured byte goes to `XFER_DATA`, the remainder to
`XFER_T`, and the command ends by the phase's result. -/
def State.endXfer (s : State) (ok : Bool) (v : Option Byte) : State :=
  if ok then (s.recordXfer v).finish true .none else (s.recordXfer v).finish false .peerTimeout

end Sys2Proof.Machine
end

