-- ==== Sys2Proof/Machine/Transactions.lean ====
section
/-! DEFINITION. The Control and Monitor transactions (41_transactions.md R140 to R160) as what happens
at their start and at the end of each of their phases, and the commands CTRL, MON and MON_Q. -/

namespace Sys2Proof.Machine

/-! ### The Control transaction (R142) -/

/-- The start of `ControlTxn()` up to its first poll: the timer array is cleared, attention asserted,
and address phase 0 started. -/
def State.startControl (s : State) (c : CtlCmd) : State :=
  { s with ctlT := Vector.replicate 13 0 }.attnOn.startPhase (.control c (.addr 0))

/-- The end of a Control transaction that was not aborted: attention off, success. -/
def State.endControl (s : State) : State := s.attnOff.finish true .none

/-- The Control phase after `ph`, none after the last one (10_state.md R40). -/
def CtlPhase.next (ph : CtlPhase) (ll : Byte) : Option CtlPhase :=
  match ph with
  | .addr k =>
    match nextAddr k with
    | some k' => some (.addr k')
    | none => some .len
  | .len => (firstPayload ll).map .payload
  | .payload i => (nextPayload i ll).map .payload

/-- `x[CTL_T][k] <- t` for the slot of a phase (R141). -/
def State.recordControl (s : State) (ph : CtlPhase) : State :=
  { s with ctlT := s.ctlT.set ph.slot s.tmr }

/-- What a Control transaction does after the exchange of phase `ph` (R141, R142): the remainder goes
to the phase's slot; a timeout of address phase 0 aborts; otherwise the next phase starts, or the
transaction ends. -/
def State.afterControlPhase (s : State) (c : CtlCmd) (ph : CtlPhase) (ok : Bool) : State :=
  let timed := s.recordControl ph
  if ph = .addr 0 ∧ ok = false then timed.attnOff.finish false .peerTimeout
  else
    match ph.next s.ll with
    | some ph' => timed.startPhase (.control c ph')
    | none => timed.endControl

/-! ### The Monitor transaction (R150) -/

/-- The start of `MonitorTxn(q)` up to its first poll. -/
def State.startMonitor (s : State) (c : MonCmd) (quiet : Bool) : State :=
  { s with
    q := quiet
    tof := false
    attempts := s.attempts + 1
    monT := Vector.replicate 14 0 }.attnOn.startPhase (.monitor c (.addr 0))

/-- `x[MON_T][k] <- t` for the slot of a phase (R141). -/
def State.recordMonitor (s : State) (ph : MonPhase) : State :=
  { s with monT := s.monT.set ph.slot s.tmr }

/-- `TOF <- 1`: the transaction is marked timed out (R150). -/
def State.markTof (s : State) : State := { s with tof := true }

/-- `x[RLEN] <- n` where a byte was captured (R153). -/
def State.storeLength (s : State) (v : Option Byte) : State := { s with rlen := v.getD s.rlen }

/-- `x[MSG_LEN] <- n`, `n` being what `RLEN` holds (R153). -/
def State.takeLength (s : State) : State := { s with msgLen := s.rlen }

/-- `x[MSG_BUF][i] <- b` where a byte was captured (R154). -/
def State.storePayload (s : State) (i : Fin 8) (v : Option Byte) : State :=
  { s with msgBuf := s.msgBuf.set i (v.getD s.msgBuf[i]) }

/-- `x[MSG_DIR] <- 1; x[MSG_LEN] <- 0` (R156). -/
def State.suppressMessage (s : State) : State := { s with msgDir := .control, msgLen := 0 }

/-- The timeout overwrite of a non-quiet transaction (R156). -/
def State.overwriteMessage (s : State) : State :=
  if s.tof && !s.q then s.suppressMessage else s

/-- What follows a Monitor transaction, by its command (R157, R158, 42_dispatch.md R180): success ends
the command; a failed first attempt of a retrying command, which is the quiet one, is followed by
the one non-quiet attempt; any other failure ends the command with its cause. -/
def State.endMonitor (s : State) (c : MonCmd) (cause : ErrCode) : State :=
  let t := s.overwriteMessage
  if t.tof = false then t.finish true .none
  else if c.retries ∧ t.q then t.startMonitor c false
  else t.finish false cause

/-- The epilogue of a Monitor transaction that was not aborted: drive, then attention off (R155). -/
def State.monitorEpilogue (s : State) (c : MonCmd) (cause : ErrCode) : State :=
  s.dirDrive.attnOff.endMonitor c cause

/-- After an address phase (R151): a timeout of phase 0 aborts, any other is recorded only. -/
def State.afterMonitorAddr (s : State) (c : MonCmd) (k : Fin 4) (ok : Bool) : State :=
  if k = 0 ∧ ok = false then s.markTof.attnOff.endMonitor c .peerTimeout
  else
    match nextAddr k with
    | some k' => s.startPhase (.monitor c (.addr k'))
    | none => s.startPhase (.monitor c .rql)

/-- After the request-length phase (R152): a timeout is recorded only; the lines turn to sense. -/
def State.afterRequestLength (s : State) (c : MonCmd) : State :=
  s.dirSense.startPhase (.monitor c .rsl)

/-- After the response-length phase (R153): a captured byte goes to `RLEN`; a timeout or a length above
8 marks the transaction timed out, the timeout first (60_exceptions.md R225 (a)); otherwise
`MSG_LEN` takes the length at once. A phase that saw the strobe has captured a byte, so `RLEN` then
holds the pseudocode's `n`. -/
def State.afterResponseLength (s : State) (c : MonCmd) (ok : Bool) (v : Option Byte) : State :=
  let t := s.storeLength v
  if ok = false then t.markTof.monitorEpilogue c .peerTimeout
  else if t.rlen.toNat > 8 then t.markTof.monitorEpilogue c .protocolViolation
  else
    match firstPayload t.rlen with
    | some i => t.takeLength.startPhase (.monitor c (.payload i))
    | none => t.takeLength.monitorEpilogue c .peerTimeout

/-- After response payload phase `i` (R154): a captured byte goes to `MSG_BUF[i]`; a timeout marks the
transaction timed out and ends the loop. -/
def State.afterResponsePayload (s : State) (c : MonCmd) (i : Fin 8) (ok : Bool) (v : Option Byte) :
    State :=
  let t := s.storePayload i v
  if ok = false then t.markTof.monitorEpilogue c .peerTimeout
  else
    match nextPayload i s.rlen with
    | some j => t.startPhase (.monitor c (.payload j))
    | none => t.monitorEpilogue c .peerTimeout

/-- What a Monitor transaction does after the exchange of phase `ph` (R141, R150): the remainder goes
to the phase's slot, then the phase's own continuation. -/
def State.afterMonitorPhase (s : State) (c : MonCmd) (ph : MonPhase) (ok : Bool)
    (v : Option Byte) : State :=
  let timed := s.recordMonitor ph
  match ph with
  | .addr k => timed.afterMonitorAddr c k ok
  | .rql => timed.afterRequestLength c
  | .rsl => timed.afterResponseLength c ok v
  | .payload i => timed.afterResponsePayload c i ok v

/-! ### The commands -/

/-- `CTRL` (R142). -/
def execCtrl (s : State) : Host.Outcome State Fault Refusal :=
  s.accept .ctrl s.txnCheck fun t => t.latch.startControl .ctrl

/-- `MON` (R157): one non-quiet Monitor transaction. -/
def execMon (s : State) : Host.Outcome State Fault Refusal :=
  s.accept .mon s.txnCheck fun t => t.latch.startMonitor .mon false

/-- `MON_Q` (R158): one quiet Monitor transaction. -/
def execMonQ (s : State) : Host.Outcome State Fault Refusal :=
  s.accept .monQ s.txnCheck fun t => t.latch.startMonitor .monQ true

end Sys2Proof.Machine
end

