-- ==== Sys2Proof/Machine/Forward.lean ====
section
/-! DEFINITION. The retrying Monitor entry point MON_RETRY and the forwarding entry point FWD
(42_dispatch.md R180 to R184). The second attempt is in `State.endMonitor`. -/

namespace Sys2Proof.Machine

/-- The start of `RetryMonitor()`: the first attempt is quiet (R180). -/
def State.startRetryMonitor (s : State) (c : MonCmd) : State := s.startMonitor c true

/-- `MON_RETRY` (R180). -/
def execMonRetry (s : State) : Host.Outcome State Fault Refusal :=
  s.accept .monRetry s.txnCheck fun t => t.latch.startRetryMonitor .monRetry

/-- `FWD` (R182): the transaction is chosen by `MSG_DIR` at the accept; the entry has no effect on the
choice. -/
def execFwd (e : FwdEntry) (s : State) : Host.Outcome State Fault Refusal :=
  s.accept (.fwd e) s.txnCheck fun t =>
    match t.msgDir with
    | .monitor => t.latch.startRetryMonitor (.fwd e)
    | .control => t.latch.startControl (.fwd e)

end Sys2Proof.Machine
end

