-- ==== Sys2Proof/Machine/Diagnostics.lean ====
section
/-! DEFINITION. The diagnostics recorder DIAG_RD (43_diagnostics.md R200 to R205). -/

namespace Sys2Proof.Machine

/-- The accept check of DIAG_RD: selectors 5..7 are rejected (30_encoding.md R84). -/
def diagCheck (sel : BitVec 3) : Option ErrCode :=
  if sel.toNat > 4 then some .badSelect else none

/-- A timer reply in the message registers (R200). -/
def State.timerReply (s : State) (sel : BitVec 3) : State :=
  { s with msgBuf := diagBytes (s.diagValues sel), msgLen := 8 }

/-- The status snapshot in the message registers; the live STROBE bit is a draw of this step (R200,
R203). -/
def State.snapshotReply (s : State) : State :=
  let b := s.snapshotBytes s.strobe
  { s.strobeTaken with msgBuf := #v[b.1, b.2, 0, 0, 0, 0, 0, 0], msgLen := 2 }

/-- `DIAG_RD` (R200): builds one reply and ends in its accept; no poll and no wire event. -/
def execDiagRd (sel : BitVec 3) (s : State) : Host.Outcome State Fault Refusal :=
  s.accept (.diagRd sel) (diagCheck sel) fun t =>
    if sel = 4 then t.snapshotReply.finish true .none
    else (t.timerReply sel).finish true .none

end Sys2Proof.Machine
end

