-- ==== Sys2Proof/Machine/Sequencer.lean ====
section
/-! DEFINITION. The block's own step: one strobe poll of the running command and everything up to the
next poll or the command's end (00_scope.md R10), and the reset event (70_reset_and_hazards.md R250). -/

namespace Sys2Proof.Machine

/-- What the running command does after the exchange of its phase, given the phase's result
(40_transfer_primitive.md R118, 41_transactions.md R141). -/
def State.afterExchange (s : State) (ok : Bool) (v : Option Byte) : State :=
  match s.seq with
  | .idle => s
  | .xfer _ => s.endXfer ok v
  | .control c ph => s.afterControlPhase c ph ok
  | .monitor c ph => s.afterMonitorPhase c ph ok v

/-- The end of a phase after its last poll: the exchange's data leg and ack pulse, then the
command's continuation (40_transfer_primitive.md R110). -/
def State.endPhase (s : State) : State := s.endExchange.afterExchange s.phaseOk s.captured

/-- One step of a running command, from one strobe poll to the next (00_scope.md R10,
40_transfer_primitive.md R110). -/
def State.pollMove (s : State) : State :=
  if s.pollEnds then s.pollStrobe.endPhase else s.pollStrobe

/-- The block's move: a poll while a command runs, no step while idle (60_exceptions.md R222, R236,
log 11). -/
def State.blockMove (s : State) : State :=
  match s.seq with
  | .idle => s
  | _ => s.pollMove

/-- The reset event (R250, R252): every register takes its reset value, `Reset` is the only event,
`TRACE` keeps its earlier events and `REFUSED` its value; the build parameters and the model's own
record of the environment stay (log 17). -/
def State.resetEvent (s : State) : State :=
  { State.reset with
    trace := s.trace ++ [.reset]
    refused := s.refused
    build := s.build
    agenda := s.agenda
    strobes := s.strobes
    dins := s.dins
    draws := s.draws
    reads := s.reads }

end Sys2Proof.Machine
end

