-- ==== Sys2Proof/Machine/Dispatch.lean ====
section
/-! DEFINITION. The meaning of every command of spec/opcode_table.json: its accept and everything up to
its first strobe poll or its end (30_encoding.md R84, 00_scope.md R10). -/

namespace Sys2Proof.Machine

/-- `exec i s`: the client writes the command byte of `i` to `CMD` in state `s`. -/
def exec (i : Instr) (s : State) : Host.Outcome State Fault Refusal :=
  match i with
  | .xfer m => Sys2Proof.Machine.execXfer m s
  | .setdir d => Sys2Proof.Machine.execSetdir d s
  | .setattn level => Sys2Proof.Machine.execSetattn level s
  | .ctrl => Sys2Proof.Machine.execCtrl s
  | .mon => Sys2Proof.Machine.execMon s
  | .monQ => Sys2Proof.Machine.execMonQ s
  | .monRetry => Sys2Proof.Machine.execMonRetry s
  | .fwd e => Sys2Proof.Machine.execFwd e s
  | .diagRd sel => Sys2Proof.Machine.execDiagRd sel s

end Sys2Proof.Machine
end

