-- ==== Sys2Proof/Machine/Client.lean ====
section
/-! DEFINITION. The client register window (20_memory.md R60 to R64): which register an offset names,
what a read returns and what a write does, and the moves of the agenda (00_scope.md R10, log 1). -/

namespace Sys2Proof

/-- The register at an offset below 0x80 (20_memory.md R61). Offsets from 0x80 on are outside the
window; the value given for them is read by nothing. -/
def WinReg.ofOffset (off : Nat) : WinReg :=
  if off = 0x00 then .cmd
  else if off = 0x01 then .cmdArg
  else if off = 0x02 then .status
  else if off = 0x03 then .attempts
  else if h : 0x04 ≤ off ∧ off < 0x08 then .msgAddr ⟨off - 0x04, by omega⟩
  else if off = 0x08 then .msgDir
  else if off = 0x09 then .msgLen
  else if off = 0x0A then .xferData
  else if off = 0x0B then .rlen
  else if off = 0x0C then .link
  else if off = 0x0D then .lines
  else if off = 0x0E then .xferT true
  else if off = 0x0F then .xferT false
  else if h : 0x10 ≤ off ∧ off < 0x18 then .msgBuf ⟨off - 0x10, by omega⟩
  else if off = 0x18 then .ceil true
  else if off = 0x19 then .ceil false
  else if h : 0x1A ≤ off ∧ off < 0x20 then .reservedLow ⟨off - 0x1A, by omega⟩
  else if h : 0x20 ≤ off ∧ off < 0x3C then .monT ⟨(off - 0x20) / 2, by omega⟩ (off % 2 == 0)
  else if h : 0x3C ≤ off ∧ off < 0x40 then .reservedMid ⟨off - 0x3C, by omega⟩
  else if h : 0x40 ≤ off ∧ off < 0x5A then .ctlT ⟨(off - 0x40) / 2, by omega⟩ (off % 2 == 0)
  else if h : 0x5A ≤ off ∧ off < 0x80 then .reservedHigh ⟨off - 0x5A, by omega⟩
  else .reservedHigh 0

/-- How far the byte of a big-endian 16-bit register lies behind the register's offset: the high byte
at the lower offset (20_memory.md R67). -/
def halfOffset (high : Bool) : Nat := if high then 0 else 1

/-- The offset of a register (20_memory.md R61). -/
def WinReg.offset : WinReg → Nat
  | .cmd => 0x00
  | .cmdArg => 0x01
  | .status => 0x02
  | .attempts => 0x03
  | .msgAddr k => 0x04 + k.val
  | .msgDir => 0x08
  | .msgLen => 0x09
  | .xferData => 0x0A
  | .rlen => 0x0B
  | .link => 0x0C
  | .lines => 0x0D
  | .xferT high => 0x0E + halfOffset high
  | .msgBuf i => 0x10 + i.val
  | .ceil high => 0x18 + halfOffset high
  | .reservedLow j => 0x1A + j.val
  | .monT k high => 0x20 + 2 * k.val + halfOffset high
  | .reservedMid j => 0x3C + j.val
  | .ctlT k high => 0x40 + 2 * k.val + halfOffset high
  | .reservedHigh j => 0x5A + j.val

end Sys2Proof

namespace Sys2Proof.Machine

/-- What a register reads as in an idle block, given the live STROBE sample (20_memory.md R61, R62,
10_state.md). -/
def State.readReg (s : State) (strobe : Bool) : WinReg → Byte
  | .cmd => s.cmd
  | .cmdArg => s.cmdArg
  | .status => s.status.byte
  | .attempts => s.attempts
  | .msgAddr k => byteOf s.msgAddr k
  | .msgDir => bitByte s.msgDir.bit
  | .msgLen => s.msgLen
  | .xferData => s.xferData
  | .rlen => s.rlen
  | .link => s.linkByte
  | .lines => s.linesByte strobe
  | .xferT high => halfByte s.xferT high
  | .msgBuf i => s.msgBuf[i]
  | .ceil high => halfByte s.ceil high
  | .monT k high => halfByte s.monT[k] high
  | .ctlT k high => halfByte s.ctlT[k] high
  | .reservedLow _ => 0
  | .reservedMid _ => 0
  | .reservedHigh _ => 0

/-- The byte of the window at an offset, given the live STROBE sample: the model's read of one byte. -/
def State.windowByte (s : State) (strobe : Bool) (off : Nat) : Byte :=
  s.readReg strobe (WinReg.ofOffset off)

/-- A client write of `v` to a register other than `CMD` of an idle block (20_memory.md R61 to R63):
read-only and reserved offsets ignore it. `CMD` is `State.commandWrite`. -/
def State.writeReg (s : State) (r : WinReg) (v : Byte) : State :=
  match r with
  | .cmdArg => { s with cmdArg := v }
  | .msgAddr k => { s with msgAddr := setByteOf s.msgAddr k v }
  | .msgDir => { s with msgDir := MsgDir.ofByte v }
  | .msgLen => { s with msgLen := v }
  | .msgBuf i => { s with msgBuf := s.msgBuf.set i v }
  | .link => { s with link := s.link.written v }
  | .cmd | .status | .attempts | .xferData | .rlen | .lines | .xferT _ | .ceil _ | .monT _ _
  | .ctlT _ _ | .reservedLow _ | .reservedMid _ | .reservedHigh _ => s

/-- The registers whose reads are exact while a command runs (20_memory.md R64). -/
def WinRegExactWhileBusy : WinReg → Bool
  | .status | .lines | .ceil _ | .link => true
  | _ => false

/-- An access the window admits: one byte wide, at an offset below 0x80 (20_memory.md R60). -/
def legalAccess (off width : Nat) : Bool := width = 1 && off < 0x80

/-- A draw of the counter is used up (log 9). -/
def State.drawTaken (s : State) : State := { s with draws := s.draws + 1 }

/-- The state with the moves still to come (log 1). -/
def State.withAgenda (s : State) (rest : List Move) : State := { s with agenda := rest }

/-- The client's record of a read: the offset and the byte it got (log 15). -/
def State.gotByte (s : State) (off : Nat) (v : Byte) : State := { s with reads := s.reads ++ [(off, v)] }

/-- `MemRead(off, width)` (20_memory.md R60, R63, R64). A read of `LINES` samples the live STROBE, which
is a draw; while a command runs, a read that R64 does not call exact returns a free value. -/
def State.clientRead (s : State) (off width : Nat) : State :=
  if legalAccess off width = false then s.refuseAccess
  else if s.status.busy ∧ WinRegExactWhileBusy (WinReg.ofOffset off) = false then
    s.drawTaken.gotByte off (Config.freeRead s.draws)
  else if WinReg.ofOffset off = .lines then s.strobeTaken.gotByte off (s.windowByte s.strobe off)
  else s.gotByte off (s.windowByte false off)

/-- A client write of `c` to `CMD`: decoded, then accepted or rejected (30_encoding.md R84). A busy
block refuses it in both branches (20_memory.md R64). -/
def State.commandWrite (s : State) (c : Byte) : Host.Outcome State Fault Refusal :=
  match decode c with
  | .ok i => exec i s
  | .error e => .next (s.acceptIllegal c e)

/-- `MemWrite(off, width, v)` (20_memory.md R60 to R64). -/
def State.clientWrite (s : State) (off width : Nat) (v : Byte) :
    Host.Outcome State Fault Refusal :=
  if legalAccess off width = false then .next s.refuseAccess
  else if WinReg.ofOffset off = .cmd then s.commandWrite v
  else if s.status.busy then .next s.refuseAccess
  else .next (s.writeReg (WinReg.ofOffset off) v)

/-- The client's `wait` as the first move of the agenda: done once `DONE = 1`; until then the block
moves and the client goes on waiting (30_encoding.md R99, log 16). -/
def State.awaitDone (s : State) : State :=
  if s.status.done then s else s.blockMove.withAgenda (.await :: s.agenda)

/-- One move of the agenda, which `s` no longer holds. -/
def State.move (s : State) : Move → Host.Outcome State Fault Refusal
  | .block => .next s.blockMove
  | .read off width => .next (s.clientRead off width)
  | .write off width v => s.clientWrite off width v
  | .await => .next s.awaitDone
  | .reset => .next s.resetEvent

/-- The next step of the whole machine: the first move of the agenda, and the block's move when the
agenda is empty (00_scope.md R10, log 1). -/
def State.nextMove (s : State) : Host.Outcome State Fault Refusal :=
  match s.agenda with
  | [] => .next s.blockMove
  | m :: rest => (s.withAgenda rest).move m

/-- The client write of a command byte placed as the next move (log 1). -/
def State.withCommand (s : State) (c : Byte) : State :=
  s.withAgenda (.write 0x00 1 c :: s.agenda)

end Sys2Proof.Machine
end

