-- ==== Sys2Proof/Machine/Step.lean ====
section
/-! DEFINITION. One step of the machine, and the place from which it takes its next command. -/

namespace Sys2Proof.Machine

/-- One step: the next move of the agenda, or of the block (00_scope.md R10). -/
def step (s : State) : Host.Outcome State Fault Refusal := s.nextMove

/-- `s` with a command placed as the next move: the client's write of the byte to `CMD`, which is how a
command comes to run (10_state.md R26, 70_reset_and_hazards.md R253, log 1). -/
def State.withFetchWord (s : State) (_nbits w : Nat) : State := s.withCommand (BitVec.ofNat 8 w)

end Sys2Proof.Machine
end

