-- ==== Sys2Proof/Machine/Asm.lean ====
section
/-! DEFINITION. The assembler of client programs (30_encoding.md R98, R99): what a line expands into,
the register names, and the reader of the text form. The text conventions that R98 leaves open are
in log 27. -/

namespace Sys2Proof.Machine

/-! ### What a line expands into -/

/-- A one-byte client write to a register (R98). -/
def writeMove (r : WinReg) (v : Byte) : Move := .write r.offset 1 v

/-- A one-byte client read of a register (R98). -/
def readMove (r : WinReg) : Move := .read r.offset 1

/-- The write of a command byte to `CMD` (R99). -/
def commandMove (i : Instr) : Move := writeMove .cmd (encode i)

/-- The writes that `ldmsg` gives the payload bytes, from `MSG_BUF` byte `i` on (R99). -/
def payloadMoves (i : Nat) : List Byte → List Move
  | [] => []
  | b :: rest => .write (0x10 + i) 1 b :: payloadMoves (i + 1) rest

/-- The client operations of one line (R98, R99). -/
def expandLine : AsmLine → List Move
  | .wr r imm => [writeMove r imm]
  | .rd r => [readMove r]
  | .xferW none => [commandMove (.xfer .write)]
  | .xferW (some b) => [writeMove .cmdArg b, commandMove (.xfer .write)]
  | .xferR => [commandMove (.xfer .read)]
  | .setdir d => [commandMove (.setdir d)]
  | .setattn level => [commandMove (.setattn level)]
  | .ctrl => [commandMove .ctrl]
  | .mon => [commandMove .mon]
  | .monQ => [commandMove .monQ]
  | .monRetry => [commandMove .monRetry]
  | .fwd e => [commandMove (.fwd e)]
  | .diag sel => [commandMove (.diagRd sel)]
  | .ldmsg control rca len payload =>
    [writeMove .msgDir (bitByte control),
     writeMove (.msgAddr 0) (byteOf rca 0), writeMove (.msgAddr 1) (byteOf rca 1),
     writeMove (.msgAddr 2) (byteOf rca 2), writeMove (.msgAddr 3) (byteOf rca 3),
     writeMove .msgLen len] ++ payloadMoves 0 payload
  | .wait => [.await]

/-! ### The text form -/

/-- A number below 20 in decimal digits, as the register names use it. -/
def digits (n : Nat) : List Char :=
  if n < 10 then [Char.ofNat (48 + n)] else ['1', Char.ofNat (48 + (n - 10))]

/-- The suffix of one byte of a 16-bit register (R98). -/
def halfSuffix (high : Bool) : List Char := if high then ".H".toList else ".L".toList

/-- The name of a register in a program; the reserved offsets have none (R98). -/
def regName : WinReg → Option (List Char)
  | .cmd => some "CMD".toList
  | .cmdArg => some "CMD_ARG".toList
  | .status => some "STATUS".toList
  | .attempts => some "ATTEMPTS".toList
  | .msgAddr k => some ("MSG_ADDR".toList ++ digits k.val)
  | .msgDir => some "MSG_DIR".toList
  | .msgLen => some "MSG_LEN".toList
  | .xferData => some "XFER_DATA".toList
  | .rlen => some "RLEN".toList
  | .link => some "LINK".toList
  | .lines => some "LINES".toList
  | .xferT high => some ("XFER_T".toList ++ halfSuffix high)
  | .msgBuf i => some ("MSG_BUF".toList ++ digits i.val)
  | .ceil high => some ("CEIL".toList ++ halfSuffix high)
  | .monT k high => some ("MON_T".toList ++ digits k.val ++ halfSuffix high)
  | .ctlT k high => some ("CTL_T".toList ++ digits k.val ++ halfSuffix high)
  | .reservedLow _ | .reservedMid _ | .reservedHigh _ => none

/-- The register of a name: the first offset whose register has it. -/
def regOfName (name : List Char) : Option WinReg :=
  ((List.range 0x80).map WinReg.ofOffset).find? fun r => regName r == some name

/-- The value of a digit in a base up to 16, letters in either case. -/
def digitValue (base : Nat) (c : Char) : Option Nat :=
  let n := c.toNat
  let v := if 48 ≤ n ∧ n ≤ 57 then n - 48
    else if 97 ≤ n ∧ n ≤ 102 then n - 87
    else if 65 ≤ n ∧ n ≤ 70 then n - 55
    else 16
  if v < base then some v else none

/-- The value of a string of digits, `acc` being what was read before. -/
def digitsValue (base : Nat) : Nat → List Char → Option Nat
  | acc, [] => some acc
  | acc, c :: rest =>
    match digitValue base c with
    | some v => digitsValue base (acc * base + v) rest
    | none => none

/-- A number in decimal or in `0x` hexadecimal (R98). -/
def number : List Char → Option Nat
  | [] => none
  | ['0', 'x'] => none
  | '0' :: 'x' :: rest => digitsValue 16 0 rest
  | c :: rest => digitsValue 10 0 (c :: rest)

/-- A number below a bound, as a bit vector. -/
def numberBelow (w : Nat) (t : List Char) : Option (BitVec w) :=
  match number t with
  | some n => if n < 2 ^ w then some (BitVec.ofNat w n) else none
  | none => none

/-- All of a list of optional values, none if one is missing. -/
def allSome {α : Type} : List (Option α) → Option (List α)
  | [] => some []
  | none :: _ => none
  | some a :: rest => (allSome rest).map (a :: ·)

/-- A line without its comment: `;` starts one (R98). -/
def withoutComment (line : List Char) : List Char := line.takeWhile (· != ';')

/-- Whether a character only separates tokens. -/
def isSeparator (c : Char) : Bool := c == ' ' || c == '\t' || c == '\r' || c == ','

/-- The tokens of a line: maximal runs of characters other than separators. -/
def tokens (line : List Char) : List (List Char) :=
  let cut := line.foldr
    (fun c (acc : List Char × List (List Char)) =>
      if isSeparator c then ([], if acc.1 = [] then acc.2 else acc.1 :: acc.2)
      else (c :: acc.1, acc.2))
    (([], []) : List Char × List (List Char))
  if cut.1 = [] then cut.2 else cut.1 :: cut.2

/-- The lines of a text. -/
def textLines (text : List Char) : List (List Char) :=
  let cut := text.foldr
    (fun c (acc : List Char × List (List Char)) =>
      if c == '\n' then ([], acc.1 :: acc.2) else (c :: acc.1, acc.2))
    (([], []) : List Char × List (List Char))
  cut.1 :: cut.2

/-- A direction operand of `setdir` (R99). -/
def dirOperand (t : List Char) : Option Dir :=
  if t = "drive".toList then some .drive
  else if t = "sense".toList then some .sense
  else none

/-- A level operand of `setattn` (R99). -/
def levelOperand (t : List Char) : Option Bool :=
  match number t with
  | some 0 => some false
  | some 1 => some true
  | _ => none

/-- A message kind, `mon` (false) or `ctl` (true) (R99). -/
def kindOperand (t : List Char) : Option Bool :=
  if t = "mon".toList then some false
  else if t = "ctl".toList then some true
  else none

/-- The forward entry of a message kind (R99). -/
def entryOfKind (control : Bool) : FwdEntry := if control then .controlForward else .monitorForward

/-- The line that a list of tokens with at least one stands for, where it is well formed (R98, R99). -/
def parseTokens (op : List Char) (args : List (List Char)) : Option AsmLine :=
  let line : Option AsmLine :=
    if op = "wr".toList then
      match args with
      | [r, v] => do return .wr (← regOfName r) (← numberBelow 8 v)
      | _ => none
    else if op = "rd".toList then
      match args with
      | [r] => do return .rd (← regOfName r)
      | _ => none
    else if op = "xfer.w".toList then
      match args with
      | [] => some (.xferW none)
      | [v] => do return .xferW (some (← numberBelow 8 v))
      | _ => none
    else if op = "setdir".toList then
      match args with
      | [d] => do return .setdir (← dirOperand d)
      | _ => none
    else if op = "setattn".toList then
      match args with
      | [l] => do return .setattn (← levelOperand l)
      | _ => none
    else if op = "fwd".toList then
      match args with
      | [k] => do return .fwd (entryOfKind (← kindOperand k))
      | _ => none
    else if op = "diag".toList then
      match args with
      | [v] => do return .diag (← numberBelow 3 v)
      | _ => none
    else if op = "ldmsg".toList then
      match args with
      | k :: rca :: len :: payload => do
        return .ldmsg (← kindOperand k) (← numberBelow 32 rca) (← numberBelow 8 len)
          (← allSome (payload.map (numberBelow 8)))
      | _ => none
    else if args ≠ [] then none
    else if op = "xfer.r".toList then some .xferR
    else if op = "ctrl".toList then some .ctrl
    else if op = "mon".toList then some .mon
    else if op = "mon.q".toList then some .monQ
    else if op = "mon.retry".toList then some .monRetry
    else if op = "wait".toList then some .wait
    else none
  match line with
  | some l => if l.wf then some l else none
  | none => none

/-- The moves of one line of text: none where the line is no line of the syntax, no moves for an empty
line or a comment. -/
def assembleLine (line : List Char) : Option (List Move) :=
  match tokens (withoutComment line) with
  | [] => some []
  | op :: args => (parseTokens op args).map expandLine

/-- The moves of a program text, one client operation per line (R98), none where a line is not of the
syntax. -/
def assemble (text : List Char) : Option (List Move) :=
  (allSome ((textLines text).map assembleLine)).map List.flatten

end Sys2Proof.Machine
end

