-- ==== Sys2Proof/Machine/Payload.lean ====
section
/-! DEFINITION. The wire frames (30_encoding.md R88, R89) and the payload formats that the block carries
and does not interpret (R94 to R97). -/

namespace Sys2Proof.Machine

/-- The bytes of a Control frame: `A0 A1 A2 A3 L P0 .. P(L-1)` (R88). -/
def controlFrame (rca : Rca) (len : Byte) (buf : Vector Byte 8) : List Byte :=
  le32 rca ++ [len] ++ buf.toList.take len.toNat

/-- The outbound bytes of a Monitor frame: `A0 A1 A2 A3 RQ` (R89). -/
def monitorRequest (rca : Rca) (len : Byte) : List Byte := le32 rca ++ [len]

/-- The 32-bit value of four bytes, least significant byte first. -/
def ofLe32 (b0 b1 b2 b3 : Byte) : Rca := b3 ++ b2 ++ b1 ++ b0

/-- A range-query reply: low bound, then high bound, each least significant byte first (R94). -/
def rangeReply (low high : Rca) : List Byte := le32 low ++ le32 high

/-- The two bounds of a range-query reply, none for another length (R94). -/
def rangeOfReply : List Byte → Option (Rca × Rca)
  | [a, b, c, d, e, f, g, h] => some (ofLe32 a b c d, ofLe32 e f g h)
  | _ => none

/-- A diagnostic timer reply: four big-endian values (R95). -/
def timerReplyBytes (v : Vector Count 4) : List Byte := v.toList.flatMap be16

/-- The outcomes of the out-of-scope setup request (R96). -/
inductive SetupReply
  | success
  | alreadyInitialized
  | linkNotReady
  | peerTimeout
  deriving DecidableEq, Repr

/-- The one byte of a setup reply (R96). -/
def SetupReply.byte : SetupReply → Byte
  | .success => 0
  | .alreadyInitialized => 5
  | .linkNotReady => 6
  | .peerTimeout => 7

/-- The version payload (R97). -/
def versionReply (major minor patch : Byte) : List Byte := [major, minor, patch]

/-- A payload is an ambient-temperature sample by its length alone, four bytes (R97). -/
def isTemperaturePayload (p : List Byte) : Bool := p.length = 4

end Sys2Proof.Machine
end

