-- ==== Sys2Proof/Machine/Pseudocode.lean ====
section
/-! DEFINITION. The spec's pseudocode of the polling commands read as one whole command each, loops and
all (40_transfer_primitive.md R110 and R118, 41_transactions.md R141, R142, R150, R157 and R158,
42_dispatch.md R180 and R182). The machine does not use it: it is the other side of the claims that
the machine, which stops at every strobe poll (00_scope.md R10), carries the pseudocode out. -/

namespace Sys2Proof.Machine

/-- The polling loop of `Exchange` with `n` counts left (R110). -/
def pollLoop : Nat → State → State
  | 0, s => s
  | n + 1, s =>
    let polled := s.strobeTaken.emit (.poll s.strobe)
    if s.strobe then polled else pollLoop n { polled with tmr := BitVec.ofNat 16 n }

/-- What `Exchange(mode, b)` returns, with the state it leaves (R110). -/
structure Exchanged where
  ok : Bool
  t : Count
  v : Option Byte
  state : State

/-- `Exchange(mode, b)` as a whole (R110). -/
def wholeExchange (mode : Mode) (b : Byte) (s : State) : Exchanged :=
  let p := pollLoop s.ceil.toNat { s with tmr := s.ceil }
  let ok : Bool := p.tmr ≠ 0
  let marked := if ok then p else { p with status := p.status.markTimeout }
  if ok || s.build.ackOnTimeout then
    match mode with
    | .write =>
      { ok := ok, t := p.tmr, v := none
        state := ({ marked with dout := b }.emit (.drive b)).pulseAck }
    | .read =>
      { ok := ok, t := p.tmr, v := some p.din
        state := (marked.dinTaken.emit (.sense p.din)).pulseAck }
  else { ok := ok, t := p.tmr, v := none, state := marked }

/-- `XFER(m)` (R118), on the accepted state. -/
def wholeXfer (m : Mode) (s : State) : State :=
  let e := wholeExchange m (match m with | .write => s.cmdArg | .read => 0) s
  let stored := match e.v with
    | some b => { e.state with xferData := b }
    | none => e.state
  let timed := { stored with xferT := e.t }
  if e.ok then timed.finish true .none else timed.finish false .peerTimeout

/-- `Phase(CTL_T, k, WRITE, b)` (41_transactions.md R141). -/
def wholeCtlPhase (k : Fin 13) (b : Byte) (s : State) : Exchanged :=
  let e := wholeExchange .write b s
  { e with state := { e.state with ctlT := e.state.ctlT.set k e.t } }

/-- `Phase(MON_T, k, mode, b)` (41_transactions.md R141). -/
def wholeMonPhase (k : Fin 14) (mode : Mode) (b : Byte) (s : State) : Exchanged :=
  let e := wholeExchange mode b s
  { e with state := { e.state with monT := e.state.monT.set k e.t } }

/-- The payload loop of `ControlTxn()`, over the indices still to send (R142). -/
def wholeControlPayload : List (Fin 8) → State → State
  | [], s => s
  | i :: rest, s =>
    wholeControlPayload rest (wholeCtlPhase ⟨5 + i.val, by omega⟩ s.msgBuf[i] s).state

/-- `ControlTxn()` (R142). -/
def wholeControlTxn (s : State) : State :=
  let begun := { s with ctlT := Vector.replicate 13 0 }.attnOn
  let e0 := wholeCtlPhase 0 (byteOf s.la 0) begun
  if e0.ok = false then e0.state.attnOff.finish false .peerTimeout
  else
    let s1 := (wholeCtlPhase 1 (byteOf s.la 1) e0.state).state
    let s2 := (wholeCtlPhase 2 (byteOf s.la 2) s1).state
    let s3 := (wholeCtlPhase 3 (byteOf s.la 3) s2).state
    let s4 := (wholeCtlPhase 4 s.ll s3).state
    (wholeControlPayload ((List.finRange 8).take s.ll.toNat) s4).attnOff.finish true .none

/-- The response payload loop of `MonitorTxn`, over the indices still to receive, left at the first
timeout (R150, R154). -/
def wholeResponsePayload : List (Fin 8) → State → State
  | [], s => s
  | i :: rest, s =>
    let e := wholeMonPhase ⟨6 + i.val, by omega⟩ .read 0 s
    let stored := match e.v with
      | some b => { e.state with msgBuf := e.state.msgBuf.set i b }
      | none => e.state
    if e.ok then wholeResponsePayload rest stored else { stored with tof := true }

/-- The part of `MonitorTxn` from the response-length phase to the end of the payload (R150, R153,
R154), with the cause. -/
def wholeResponse (s : State) : State × ErrCode :=
  let e := wholeMonPhase 5 .read 0 s
  match e.v with
  | none => ({ e.state with tof := true }, .peerTimeout)
  | some n =>
    let held := { e.state with rlen := n }
    if e.ok = false then ({ held with tof := true }, .peerTimeout)
    else if n.toNat > 8 then ({ held with tof := true }, .protocolViolation)
    else
      (wholeResponsePayload ((List.finRange 8).take n.toNat) { held with msgLen := n }, .peerTimeout)

/-- `MonitorTxn(q)` (R150): the state it leaves and the cause; it succeeded when `TOF` is 0. -/
def wholeMonitorTxn (quiet : Bool) (s : State) : State × ErrCode :=
  let begun :=
    { s with
      q := quiet
      tof := false
      attempts := s.attempts + 1
      monT := Vector.replicate 14 0 }.attnOn
  let e0 := wholeMonPhase 0 .write (byteOf s.la 0) begun
  let done : State × ErrCode :=
    if e0.ok = false then ({ e0.state with tof := true }.attnOff, .peerTimeout)
    else
      let s1 := (wholeMonPhase 1 .write (byteOf s.la 1) e0.state).state
      let s2 := (wholeMonPhase 2 .write (byteOf s.la 2) s1).state
      let s3 := (wholeMonPhase 3 .write (byteOf s.la 3) s2).state
      let s4 := (wholeMonPhase 4 .write s.ll s3).state
      let r := wholeResponse s4.dirSense
      (r.1.dirDrive.attnOff, r.2)
  if done.1.tof = true ∧ quiet = false then
    ({ done.1 with msgDir := .control, msgLen := 0 }, done.2)
  else done

/-- The end of a command after its last Monitor transaction (R157, R158, 42_dispatch.md R180). -/
def finishMonitor (r : State × ErrCode) : State :=
  if r.1.tof = false then r.1.finish true .none else r.1.finish false r.2

/-- `RetryMonitor()` (42_dispatch.md R180). -/
def wholeRetryMonitor (s : State) : State :=
  let first := wholeMonitorTxn true s
  if first.1.tof = false then first.1.finish true .none
  else finishMonitor (wholeMonitorTxn false first.1)

/-- `CTRL` (R142), on the accepted state. -/
def wholeCtrl (s : State) : State := wholeControlTxn s.latch

/-- `MON` (R157), on the accepted state. -/
def wholeMon (s : State) : State := finishMonitor (wholeMonitorTxn false s.latch)

/-- `MON_Q` (R158), on the accepted state. -/
def wholeMonQ (s : State) : State := finishMonitor (wholeMonitorTxn true s.latch)

/-- `MON_RETRY` (42_dispatch.md R180), on the accepted state. -/
def wholeMonRetry (s : State) : State := wholeRetryMonitor s.latch

/-- `FWD(m)` (42_dispatch.md R182), on the accepted state. -/
def wholeFwd (s : State) : State :=
  match s.msgDir with
  | .monitor => wholeRetryMonitor s.latch
  | .control => wholeControlTxn s.latch

end Sys2Proof.Machine
end

