-- ==== Sys2Proof/Safety.lean ====
section
/-! DEFINITION. The terms in which claims about the block are made: the conditions under which a command
runs, the machine's invariant, runs of the machine, and the wire's phases and counts. -/

namespace Sys2Proof.Machine

/-! ### Runs -/

/-- `k` steps of the machine lead from `s` to `t`. -/
def Runs (k : Nat) (s t : State) : Prop := Host.Core.run Sys2Proof.core k s = .next t

/-- `n` moves of the block alone. -/
def blockMoves : Nat → State → State
  | 0, s => s
  | n + 1, s => blockMoves n s.blockMove

/-! ### Conditions on a state -/

/-- The lines are at their default (41_transactions.md R140). -/
def LinesDefault (s : State) : Prop := s.dir = .drive ∧ s.attn = false

/-- The accept of a transaction command lets it run (30_encoding.md R84): no command runs, the lines are
at their default, and the message is at most 8 bytes long. -/
def TransactionReady (s : State) : Prop :=
  s.status.busy = false ∧ LinesDefault s ∧ s.msgLen.toNat ≤ 8

/-- The five commands that run transactions (41_transactions.md R140). -/
def isTransaction : Instr → Bool
  | .ctrl | .mon | .monQ | .monRetry | .fwd _ => true
  | .xfer _ | .setdir _ | .setattn _ | .diagRd _ => false

/-- The commands that run a Control transaction on a message of the given direction
(42_dispatch.md R182). -/
def runsControl (i : Instr) (message : MsgDir) : Bool :=
  match i with
  | .ctrl => true
  | .fwd _ => message = .control
  | _ => false

/-- The commands that run a Monitor transaction on a message of the given direction
(42_dispatch.md R182). -/
def runsMonitor (i : Instr) (message : MsgDir) : Bool :=
  match i with
  | .mon | .monQ | .monRetry => true
  | .fwd _ => message = .monitor
  | _ => false

/-- `STATUS` after a success without a timeout, byte 0x06 (60_exceptions.md R223). -/
def statusSuccess : Status :=
  { busy := false, done := true, ok := true, timeout := false, ecode := .none }

/-- `STATUS` after a failure by a timeout, byte 0xCA (60_exceptions.md R223). -/
def statusTimeout : Status :=
  { busy := false, done := true, ok := false, timeout := true, ecode := .peerTimeout }

/-- The accept of `i` in `s` ends by `Reject(code)`, whose effect is on `CMD`, `STATUS`, `ATTEMPTS` and
`SEQ` alone; `LA` and `LL` are unspecified after it (60_exceptions.md R221). -/
def AcceptRejects (i : Instr) (s : State) (code : ErrCode) : Prop :=
  ∃ la ll, exec i s = .next { s with
    cmd := encode i
    status := { busy := false, done := true, ok := false, timeout := false, ecode := code }
    attempts := 0
    seq := .idle
    la := la
    ll := ll }

/-- A transaction command is rejected with `LINE_STATE` where the lines are not at their default, and
otherwise with `MALFORMED_LENGTH` where the message is too long (41_transactions.md R140). -/
def RejectedUnlessReady (i : Instr) (s : State) : Prop :=
  (¬ LinesDefault s → AcceptRejects i s .lineState) ∧
    (LinesDefault s → 8 < s.msgLen.toNat → AcceptRejects i s .malformedLength)

/-- `i`, accepted in `s`, reaches the state `t` in at least one and at most `bound` moves of the block
after its accept, and is then at its end. -/
def RunsTo (i : Instr) (s : State) (bound : Nat) (t : State) : Prop :=
  ∃ t0 k, exec i s = .next t0 ∧ 1 ≤ k ∧ k ≤ bound ∧ blockMoves k t0 = t ∧ t.seq = .idle

/-- The direction that an exchange mode needs (40_transfer_primitive.md R115). -/
def modeDir : Mode → Dir
  | .write => .drive
  | .read => .sense

/-- The attempt a Monitor command is in, by its `Q` and `ATTEMPTS` (41_transactions.md R157, R158,
42_dispatch.md R180). -/
def AttemptOk (c : MonCmd) (quiet : Bool) (attempts : Byte) : Prop :=
  match c with
  | .mon => quiet = false ∧ attempts = 1
  | .monQ => quiet = true ∧ attempts = 1
  | .monRetry => (quiet = true ∧ attempts = 1) ∨ (quiet = false ∧ attempts = 2)
  | .fwd _ => (quiet = true ∧ attempts = 1) ∨ (quiet = false ∧ attempts = 2)

/-- What holds of the lines and of the latched request in the phase that is in progress. -/
def PlaceOk (s : State) : Prop :=
  match s.seq with
  | .idle => True
  | .xfer m => s.dir = modeDir m ∧ s.attempts = 0
  | .control _ ph =>
    s.dir = .drive ∧ s.attn = true ∧ s.ll.toNat ≤ 8 ∧ s.attempts = 0 ∧
      (∀ i, ph = .payload i → i.val < s.ll.toNat)
  | .monitor c ph =>
    s.dir = modeDir s.seq.mode ∧ s.attn = true ∧ s.ll.toNat ≤ 8 ∧ s.tof = false ∧
      AttemptOk c s.q s.attempts ∧
      (∀ i, ph = .payload i → i.val < s.rlen.toNat ∧ s.rlen.toNat ≤ 8 ∧ s.msgLen = s.rlen)

/-- The invariant of the machine: what is true between any two steps of a run from power-on. -/
structure Inv (s : State) : Prop where
  /-- `ACK` is 0 at every step boundary (40_transfer_primitive.md R113). -/
  ack_low : s.ack = false
  /-- `BUSY` is 1 exactly while a command runs (10_state.md R28, R40). -/
  busy_iff : s.status.busy = true ↔ s.seq ≠ .idle
  /-- While `BUSY = 1`, `DONE`, `OK` and `ECODE` read as 0 (10_state.md R28). -/
  busy_fields : s.status.busy = true →
    s.status.done = false ∧ s.status.ok = false ∧ s.status.ecode = .none
  /-- A successful end has the code `NONE` (60_exceptions.md R222). -/
  ok_code : s.status.ok = true → s.status.ecode = .none
  /-- `PEER_TIMEOUT` always comes with `TO = 1` (60_exceptions.md R223). -/
  timeout_flag : s.status.ecode = .peerTimeout → s.status.timeout = true
  /-- `RLEN` holds the offending length of a `PROTOCOL_VIOLATION` (60_exceptions.md R226). -/
  violation_length : s.status.ecode = .protocolViolation → 8 < s.rlen.toNat
  /-- `CMD` holds the byte of the running command (10_state.md R26). -/
  command_held : ∀ i, s.seq.command = some i → s.cmd = encode i
  /-- A running phase's countdown is in 1..CEIL, so it never wraps (40_transfer_primitive.md R111). -/
  countdown : s.seq ≠ .idle → 1 ≤ s.tmr.toNat ∧ s.tmr.toNat ≤ s.ceil.toNat
  /-- A recorded remainder is at most `CEIL` (10_state.md R38). -/
  monitor_slots : ∀ k : Fin 14, s.monT[k].toNat ≤ s.ceil.toNat
  /-- A recorded remainder is at most `CEIL` (10_state.md R39). -/
  control_slots : ∀ k : Fin 13, s.ctlT[k].toNat ≤ s.ceil.toNat
  /-- The recorded remainder of XFER is at most `CEIL` (40_transfer_primitive.md R118). -/
  xfer_slot : s.xferT.toNat ≤ s.ceil.toNat
  /-- There is never a third attempt (42_dispatch.md R181). -/
  attempts_le : s.attempts.toNat ≤ 2
  /-- The lines and the latched request fit the phase in progress (40_transfer_primitive.md R115). -/
  place : PlaceOk s

/-- The slots of the phase in progress and of the phases after it hold the 0 written at the start of the
transaction (41_transactions.md R141). -/
def SlotsAheadZero (s : State) : Prop :=
  match s.seq with
  | .idle => True
  | .xfer _ => True
  | .control _ ph => ∀ k : Fin 13, ph.slot.val ≤ k.val → s.ctlT[k] = 0
  | .monitor _ ph => ∀ k : Fin 14, ph.slot.val ≤ k.val → s.monT[k] = 0

/-! ### What is hidden -/

/-- Two states that differ at most in hidden registers whose values the running command, if any, has
not written yet (10_state.md R41): `TMR` is written at the start of every phase, `LA` and `LL` at the
start of every transaction, `Q` and `TOF` at the start of every Monitor transaction. -/
def SameVisible (s t : State) : Prop :=
  t = { s with tmr := t.tmr, la := t.la, ll := t.ll, q := t.q, tof := t.tof } ∧
    (match s.seq with
    | .idle => True
    | .xfer _ => t.tmr = s.tmr
    | .control _ _ => t.tmr = s.tmr ∧ t.la = s.la ∧ t.ll = s.ll
    | .monitor _ _ => t = s)

/-! ### Bounds -/

/-- The bound of 70_reset_and_hazards.md R260 on the strobe polls of a command, for a message of the
given direction and a ceiling of the given value. -/
def pollBound (i : Instr) (message : MsgDir) (ceil : Nat) : Nat :=
  match i with
  | .xfer _ => ceil
  | .setdir _ | .setattn _ | .diagRd _ => 0
  | .ctrl => 13 * ceil
  | .mon | .monQ => 14 * ceil
  | .monRetry => 28 * ceil
  | .fwd _ =>
    match message with
    | .monitor => 28 * ceil
    | .control => 13 * ceil

/-! ### The wire -/

/-- `n` failed polls. -/
def failedPolls (n : Nat) : List WireEvent := List.replicate n (.poll false)

/-- The STROBE samples of phases that see the strobe after the given numbers of failed polls. -/
def strobesAfter (waits : List Nat) : List Bool :=
  waits.flatMap fun n => List.replicate n false ++ [true]

/-- The events of a write phase that sees the strobe after `n` failed polls (20_memory.md R76). -/
def writePhase (n : Nat) (b : Byte) : List WireEvent :=
  failedPolls n ++ [.poll true, .drive b, .ackPulse]

/-- The events of a read phase that sees the strobe after `n` failed polls (20_memory.md R76). -/
def readPhase (n : Nat) (b : Byte) : List WireEvent :=
  failedPolls n ++ [.poll true, .sense b, .ackPulse]

/-- The events of a write phase that times out (40_transfer_primitive.md R114). -/
def timedOutWrite (b : Build) (v : Byte) : List WireEvent :=
  failedPolls b.ceil.toNat ++ if b.ackOnTimeout then [.drive v, .ackPulse] else []

/-- The remainder of a phase after `n` failed polls (40_transfer_primitive.md R111). -/
def remainder (b : Build) (n : Nat) : Count := b.ceil - BitVec.ofNat 16 n

/-- How many events of a trace satisfy a test. -/
def countEvents (p : WireEvent → Bool) (tr : List WireEvent) : Nat := tr.countP p

/-- A strobe poll. -/
def isPoll : WireEvent → Bool
  | .poll _ => true
  | _ => false

/-- An ack pulse. -/
def isAckPulse : WireEvent → Bool
  | .ackPulse => true
  | _ => false

/-- A data leg. -/
def isDataLeg : WireEvent → Bool
  | .drive _ | .sense _ => true
  | _ => false

/-! ### Terms that no step reads (log 18) -/

/-- The worst-case time of one Monitor transaction: 14 phases, each with `CEIL` polls, a data leg and an
ack pulse (70_reset_and_hazards.md R254 (1), R260). -/
def worstMonitorTime (b : Build) : Nat :=
  14 * b.ceil.toNat * Config.tick + 14 * Config.dataLegTime + 14 * Config.ackWidth

/-- The build condition of 70_reset_and_hazards.md R254 (1): `14 * CEIL * TICK`, plus the data legs and
the ack pulses, stays within the reply budget. The block does not check it. -/
def ReplyBudgetMet (b : Build) : Prop := worstMonitorTime b ≤ Config.replyBudget

/-- The electrical level of a line that is asserted or not (00_scope.md R5 `LEVEL_<line>`). -/
def electricalLevel (l : Line) (asserted : Bool) : Bool :=
  if asserted then Config.level l else !Config.level l

end Sys2Proof.Machine
end

