-- ==== Sys2Proof/Certificates/Slice0/Obligations.lean ====
section
/-! DEFINITION. The statements about the model for the provers. Each docstring names the rule of spec/
that the statement rests on; OBLIGATIONS.json lists them. No statement rests on a value that the model
chose, except where its docstring says so. -/

open Sys2Proof Sys2Proof.Machine

/-! ### The command byte -/

/-- Every command is read back from its byte (30_encoding.md R81, R82). -/
def Obligations.DecodeOfEncode : Prop := ∀ i : Instr, decode (encode i) = .ok i

/-- Every byte that decodes is the byte of its command: no bit is ignored (R82, R83). -/
def Obligations.EncodeOfDecode : Prop := ∀ (c : Byte) (i : Instr), decode c = .ok i → encode i = c

/-- The bytes of the opcode map decode to their commands (R82). -/
def Obligations.OpcodeMapBytesDecode : Prop :=
  decode 0b00000001 = .ok (.xfer .write) ∧ decode 0b00010001 = .ok (.xfer .read) ∧
    decode 0b00000010 = .ok (.setdir .drive) ∧ decode 0b00010010 = .ok (.setdir .sense) ∧
    decode 0b00000011 = .ok (.setattn false) ∧ decode 0b00010011 = .ok (.setattn true) ∧
    decode 0b00000100 = .ok .ctrl ∧ decode 0b00000101 = .ok .mon ∧
    decode 0b00000110 = .ok .monQ ∧ decode 0b00000111 = .ok .monRetry ∧
    decode 0b00001000 = .ok (.fwd .monitorForward) ∧
    decode 0b00011000 = .ok (.fwd .controlForward) ∧
    decode 0b00001001 = .ok (.diagRd 0) ∧ decode 0b00101001 = .ok (.diagRd 1) ∧
    decode 0b01001001 = .ok (.diagRd 2) ∧ decode 0b01101001 = .ok (.diagRd 3) ∧
    decode 0b10001001 = .ok (.diagRd 4)

/-- Exactly the 17 bytes of R86 are the bytes of well-formed commands. -/
def Obligations.LegalCommandBytes : Prop :=
  ∀ c : Byte, (∃ i, decode c = .ok i ∧ i.wf = true) ↔
    c ∈ [0x01#8, 0x11, 0x02, 0x12, 0x03, 0x13, 0x04, 0x05, 0x06, 0x07, 0x08, 0x18, 0x09, 0x29,
      0x49, 0x69, 0x89]

/-- An illegal command byte written to an idle block is rejected with the code of R85 and changes
`CMD`, `STATUS`, `ATTEMPTS` and `SEQ` alone: no line activity, no timer, no message register. `LA` and
`LL` are unspecified after a reject (60_exceptions.md R221). -/
def Obligations.IllegalBytesAreRejected : Prop :=
  ∀ (s : State) (c : Byte) (rest : List Move),
    s.status.busy = false → s.agenda = .write 0x00 1 c :: rest →
    let op := (c.extractLsb' 0 4).toNat
    let m := c.getLsbD 4
    let sel := (c.extractLsb' 5 3).toNat
    let rejected (code : ErrCode) : Prop :=
      ∃ la ll, step s = .next { s with
        agenda := rest
        cmd := c
        status := { busy := false, done := true, ok := false, timeout := false, ecode := code }
        attempts := 0
        seq := .idle
        la := la
        ll := ll }
    (op = 0 ∨ 10 ≤ op → rejected .illegalOp) ∧
    ((op = 1 ∨ op = 2 ∨ op = 3 ∨ op = 8) → sel ≠ 0 → rejected .reservedField) ∧
    ((op = 4 ∨ op = 5 ∨ op = 6 ∨ op = 7) → (m = true ∨ sel ≠ 0) → rejected .reservedField) ∧
    (op = 9 → m = true → rejected .reservedField) ∧
    (op = 9 → m = false → 5 ≤ sel → rejected .badSelect)

/-! ### Steps, moves and the client window -/

/-- A step whose next move is the client's write of a byte that decodes to `i` is `exec` of `i` in the
state without that move (R84); a busy block refuses the command inside `exec`. That the coming moves
stand in a list is the model's choice (log 1). -/
def Obligations.StepRunsTheWrittenCommand : Prop :=
  ∀ (s : State) (c : Byte) (i : Instr) (rest : List Move),
    s.agenda = .write 0x00 1 c :: rest → decode c = .ok i →
    step s = exec i { s with agenda := rest }

/-- With no move of the environment to come, or with the block's turn as the next one, a step is one
move of the block (00_scope.md R10); the list of moves is the model's choice (log 1). -/
def Obligations.StepMovesTheBlock : Prop :=
  ∀ s : State,
    (s.agenda = [] → step s = .next s.blockMove) ∧
    (∀ rest, s.agenda = .block :: rest → step s = .next { s with agenda := rest }.blockMove)

/-- An idle block takes no step (60_exceptions.md R236); the model answers the state itself (log 11). -/
def Obligations.IdleBlockTakesNoStep : Prop :=
  ∀ s : State, s.seq = .idle → s.agenda = [] → step s = .next s

/-- Every state has a next one: no fault, no refusal, no fatal path (60_exceptions.md R220). -/
def Obligations.EveryStepAnswersNext : Prop := ∀ s : State, ∃ t, step s = .next t

/-- While a command runs, a client write at any offset, `CMD` among them, is refused: it sets `REFUSED`
and changes nothing else (20_memory.md R64, 60_exceptions.md R229). -/
def Obligations.BusyWritesAreRefused : Prop :=
  ∀ (s : State) (off width : Nat) (v : Byte) (rest : List Move),
    s.status.busy = true → s.agenda = .write off width v :: rest →
    step s = .next { s with agenda := rest, refused := true }

/-- A command given to a busy block is refused by its own meaning too (R64, R229, log 13). -/
def Obligations.BusyBlockRefusesEveryCommand : Prop :=
  ∀ (i : Instr) (s : State), s.status.busy = true → exec i s = .next { s with refused := true }

/-- An access of another width than one byte, or at an offset from 0x80 on, sets `REFUSED` and has no
other effect (R60); that a move carries a width is the model's choice (log 26). -/
def Obligations.AccessOutsideTheWindowIsRefused : Prop :=
  ∀ (s : State) (off width : Nat) (v : Byte) (rest : List Move), width ≠ 1 ∨ 0x80 ≤ off →
    (s.agenda = .write off width v :: rest →
      step s = .next { s with agenda := rest, refused := true }) ∧
    (s.agenda = .read off width :: rest →
      step s = .next { s with agenda := rest, refused := true })

/-- The window map (R61): the offset of a register leads back to it, and every offset of the window to a
register with that offset; and, in numbers, which byte of which register every offset shows: the
16-bit registers with their high byte at the lower offset, `MSG_ADDR` with its low byte there (R67),
`MSG_DIR` 0 for Monitor (10_state.md R23), `LINK` 0 to 2 (R33), the reserved offsets 0 (R62). The
bits of `STATUS` are in `RejectsArePrecise`, those of `LINES` in `DiagSnapshotReply`. -/
def Obligations.WindowMapIsABijection : Prop :=
  (∀ r : WinReg, r.offset < 0x80 ∧ WinReg.ofOffset r.offset = r) ∧
    (∀ off, off < 0x80 → (WinReg.ofOffset off).offset = off) ∧
    ∀ (s : State) (strobe : Bool),
      let shows (off : Nat) (b : Byte) : Prop := s.windowByte strobe off = b
      shows 0x00 s.cmd ∧ shows 0x01 s.cmdArg ∧ shows 0x02 s.status.byte ∧ shows 0x03 s.attempts ∧
      (∀ k, k < 4 → shows (0x04 + k) (s.msgAddr.extractLsb' (8 * k) 8)) ∧
      shows 0x08 (match s.msgDir with | .monitor => 0 | .control => 1) ∧
      shows 0x09 s.msgLen ∧ shows 0x0A s.xferData ∧ shows 0x0B s.rlen ∧
      shows 0x0C (match s.link with | .notReady => 0 | .ready => 1 | .initialized => 2) ∧
      shows 0x0D (s.linesByte strobe) ∧
      shows 0x0E (s.xferT.extractLsb' 8 8) ∧ shows 0x0F (s.xferT.extractLsb' 0 8) ∧
      (∀ i : Fin 8, shows (0x10 + i.val) s.msgBuf[i]) ∧
      shows 0x18 (s.build.ceil.extractLsb' 8 8) ∧ shows 0x19 (s.build.ceil.extractLsb' 0 8) ∧
      (∀ k : Fin 14, shows (0x20 + 2 * k.val) (s.monT[k].extractLsb' 8 8) ∧
        shows (0x21 + 2 * k.val) (s.monT[k].extractLsb' 0 8)) ∧
      (∀ k : Fin 13, shows (0x40 + 2 * k.val) (s.ctlT[k].extractLsb' 8 8) ∧
        shows (0x41 + 2 * k.val) (s.ctlT[k].extractLsb' 0 8)) ∧
      (∀ off, (0x1A ≤ off ∧ off < 0x20 ∨ 0x3C ≤ off ∧ off < 0x40 ∨ 0x5A ≤ off ∧ off < 0x80) →
        shows off 0)

/-- Reserved offsets read 0 and ignore writes, a read-only register ignores a write, and a register with
bits that read as zero stores the legal bits alone; none of it is refused (R62). -/
def Obligations.ReservedAndReadOnlyOffsets : Prop :=
  ∀ (s : State) (off : Nat) (v : Byte) (rest : List Move), s.status.busy = false →
    (s.agenda = .read off 1 :: rest →
      (0x1A ≤ off ∧ off < 0x20 ∨ 0x3C ≤ off ∧ off < 0x40 ∨ 0x5A ≤ off ∧ off < 0x80) →
      step s = .next { s with agenda := rest, reads := s.reads ++ [(off, 0)] }) ∧
    (s.agenda = .write off 1 v :: rest →
      (off = 0x02 ∨ off = 0x03 ∨ off = 0x0A ∨ off = 0x0B ∨ 0x0D ≤ off ∧ off < 0x10 ∨
        0x18 ≤ off ∧ off < 0x80) →
      step s = .next { s with agenda := rest }) ∧
    (s.agenda = .write 0x08 1 v :: rest →
      step s = .next { s with
        agenda := rest, msgDir := if v.getLsbD 0 then .control else .monitor }) ∧
    (s.agenda = .write 0x0C 1 v :: rest →
      step s = .next { s with
        agenda := rest
        link :=
          if v.toNat % 4 = 0 then .notReady
          else if v.toNat % 4 = 1 then .ready
          else if v.toNat % 4 = 2 then .initialized
          else s.link })

/-- A write to a read/write register other than `CMD` of an idle block changes that register alone: its
byte reads as written (with the legal bits of `MSG_DIR` and `LINK`), every other byte of the window
as before, and no line, no event and no sequencer state moves (R61, R63). -/
def Obligations.RegisterWritesStayInTheirByte : Prop :=
  ∀ (s : State) (off : Nat) (v : Byte) (rest : List Move), s.status.busy = false →
    s.agenda = .write off 1 v :: rest →
    (off = 0x01 ∨ 0x04 ≤ off ∧ off < 0x0A ∨ off = 0x0C ∨ 0x10 ≤ off ∧ off < 0x18) →
    ∃ t, step s = .next t ∧
      (∀ strobe other, other < 0x80 → other ≠ off →
        t.windowByte strobe other = s.windowByte strobe other) ∧
      (∀ strobe, t.windowByte strobe off =
        if off = 0x08 then v &&& 1
        else if off = 0x0C then
          if v.toNat % 4 = 3 then s.windowByte strobe off else v &&& 3
        else v) ∧
      t.trace = s.trace ∧ t.seq = s.seq ∧ t.dout = s.dout ∧ t.dir = s.dir ∧ t.attn = s.attn ∧
      t.ack = s.ack ∧ t.tmr = s.tmr ∧ t.la = s.la ∧ t.ll = s.ll ∧ t.q = s.q ∧ t.tof = s.tof ∧
      t.refused = s.refused ∧ t.agenda = rest ∧ t.reads = s.reads

/-- A read of an idle block returns the register's byte and changes nothing but the client's record and,
for `LINES`, the draw of the live STROBE (R63, 10_state.md R34, logs 14 and 15). -/
def Obligations.ReadsHaveNoSideEffect : Prop :=
  ∀ (s : State) (off : Nat) (rest : List Move), s.status.busy = false → off < 0x80 →
    s.agenda = .read off 1 :: rest →
    (off ≠ 0x0D → step s = .next { s with
      agenda := rest, reads := s.reads ++ [(off, s.windowByte false off)] }) ∧
    (off = 0x0D → ∀ b bs, s.strobes = b :: bs →
      step s = .next { s with
        agenda := rest, strobes := bs, reads := s.reads ++ [(off, s.linesByte b)] })

/-- While a command runs, `STATUS`, `CEIL` and `LINK` read as they are and every other offset but `LINES`
returns a free value, about which nothing is said (R64, logs 9 and 15). -/
def Obligations.ReadsWhileBusy : Prop :=
  ∀ (s : State) (off : Nat) (rest : List Move), s.status.busy = true → off < 0x80 →
    s.agenda = .read off 1 :: rest →
    ((off = 0x02 ∨ off = 0x0C ∨ off = 0x18 ∨ off = 0x19) → step s = .next { s with
      agenda := rest, reads := s.reads ++ [(off, s.windowByte false off)] }) ∧
    (off = 0x0D → ∀ b bs, s.strobes = b :: bs →
      step s = .next { s with
        agenda := rest, strobes := bs, reads := s.reads ++ [(off, s.linesByte b)] }) ∧
    (off ≠ 0x02 → off ≠ 0x0C → off ≠ 0x0D → off ≠ 0x18 → off ≠ 0x19 →
      ∃ v, step s = .next { s with
        agenda := rest, draws := s.draws + 1, reads := s.reads ++ [(off, v)] })

/-- `ldmsg` loads the message: its client writes, run on an idle block, leave the direction, the RCA,
the length and the given payload bytes in the message registers (30_encoding.md R99, logs 1 and 27). -/
def Obligations.LdmsgLoadsTheMessage : Prop :=
  ∀ (s : State) (control : Bool) (rca : Rca) (len : Byte) (payload : List Byte),
    s.status.busy = false → payload.length ≤ 8 → payload.length ≤ len.toNat →
    s.agenda = expandLine (.ldmsg control rca len payload) →
    ∃ t, Runs (6 + payload.length) s t ∧
      (∀ i : Fin 8, t.msgBuf[i] = payload.getD i.val s.msgBuf[i]) ∧
      t = { s with
        agenda := []
        msgDir := if control then .control else .monitor
        msgAddr := rca
        msgLen := len
        msgBuf := t.msgBuf }

/-! ### The one-step commands -/

/-- `SETDIR` (40_transfer_primitive.md R119), and what leaving `DIR = sense` does to the transaction
commands. -/
def Obligations.SetdirSetsTheDirection : Prop :=
  (encode (.setdir .drive) = 0x02 ∧ encode (.setdir .sense) = 0x12) ∧
  ∀ (s : State) (d : Dir), s.status.busy = false →
    exec (.setdir d) s = .next { s with
      cmd := encode (.setdir d)
      dir := d
      trace := s.trace ++ [match d with | .drive => .dirDrive | .sense => .dirSense]
      status := statusSuccess
      attempts := 0
      seq := .idle } ∧
    (s.dir = .sense → ∀ i, isTransaction i = true → AcceptRejects i s .lineState)

/-- `SETATTN` (40_transfer_primitive.md R120), and what leaving `ATTN = 1` does to the transaction
commands. -/
def Obligations.SetattnSetsTheAttention : Prop :=
  (encode (.setattn false) = 0x03 ∧ encode (.setattn true) = 0x13) ∧
  ∀ (s : State) (level : Bool), s.status.busy = false →
    (exec (.setattn level) s = .next { s with
      cmd := encode (.setattn level)
      attn := level
      trace := s.trace ++ [if level then .attnOn else .attnOff]
      status := statusSuccess
      attempts := 0
      seq := .idle }) ∧
    (∀ strobe, ({ s with attn := level }.linesByte strobe).getLsbD 0 = level) ∧
    (s.attn = true → ∀ i, isTransaction i = true → AcceptRejects i s .lineState)

/-- `DIAG_RD` 0..3 puts four big-endian values into the message buffer, by the selector map, and changes
nothing else but `MSG_LEN`, `CMD`, `STATUS` and `ATTEMPTS` (43_diagnostics.md R201, R202, R204). -/
def Obligations.DiagTimerReplies : Prop :=
  ∀ s : State, s.status.busy = false →
    let reply (sel : BitVec 3) (a b c d : Count) : Prop :=
      exec (.diagRd sel) s = .next { s with
        cmd := encode (.diagRd sel)
        msgBuf := #v[a.extractLsb' 8 8, a.extractLsb' 0 8, b.extractLsb' 8 8, b.extractLsb' 0 8,
          c.extractLsb' 8 8, c.extractLsb' 0 8, d.extractLsb' 8 8, d.extractLsb' 0 8]
        msgLen := 8
        status := statusSuccess
        attempts := 0
        seq := .idle }
    reply 0 s.monT[0] s.monT[1] s.monT[2] s.monT[3] ∧
    reply 1 s.monT[4] s.monT[5] s.monT[6] s.ceil ∧
    reply 2 s.ctlT[0] s.ctlT[1] s.ctlT[2] s.ctlT[3] ∧
    reply 3 s.ctlT[4] s.ctlT[5] s.ctlT[6] s.ceil

/-- `DIAG_RD` 4 puts the two snapshot bytes into the message buffer: `LINES`, with the live STROBE as a
draw of this step, and `LINK`, in the default layout; another layout is a function of the two
(43_diagnostics.md R203). The bits of `LINES`, in every state: `ATTN`, `DIR` with sense as 1, the live
STROBE, `ACK`, and four zeros (10_state.md R34); the byte of `LINK` is 0 to 2 (R33). -/
def Obligations.DiagSnapshotReply : Prop :=
  (∀ (s : State) (b : Bool),
    (s.linesByte b).getLsbD 0 = s.attn ∧
      (s.linesByte b).getLsbD 1 = (match s.dir with | .drive => false | .sense => true) ∧
      (s.linesByte b).getLsbD 2 = b ∧ (s.linesByte b).getLsbD 3 = s.ack ∧
      (s.linesByte b).extractLsb' 4 4 = 0 ∧
      s.linkByte = (match s.link with | .notReady => 0 | .ready => 1 | .initialized => 2)) ∧
  ∀ (s : State) (b : Bool) (bs : List Bool), s.status.busy = false → s.strobes = b :: bs →
    exec (.diagRd 4) s = .next { s with
      cmd := encode (.diagRd 4)
      strobes := bs
      msgBuf :=
        match s.build.snapshot with
        | .linesLink => #v[s.linesByte b, s.linkByte, 0, 0, 0, 0, 0, 0]
        | .other =>
          #v[(Config.otherSnapshot (s.linesByte b) s.linkByte).1,
            (Config.otherSnapshot (s.linesByte b) s.linkByte).2, 0, 0, 0, 0, 0, 0]
      msgLen := 2
      status := statusSuccess
      attempts := 0
      seq := .idle }

/-- `DIAG_RD` completes with each legal selector, whatever the peer's draws are, and is a pure
observation: only `MSG_BUF`, `MSG_LEN`, `CMD`, `STATUS` and `ATTEMPTS` change, and the draw of the
live STROBE is used up (43_diagnostics.md R204). A second run in a row gives the same message
registers, the STROBE bit of the snapshot excepted. -/
def Obligations.DiagIsPureObservation : Prop :=
  ∀ (s : State) (sel : BitVec 3), s.status.busy = false → sel.toNat ≤ 4 →
    ∃ t, exec (.diagRd sel) s = .next t ∧ t.status = statusSuccess ∧
      t = { s with
        cmd := encode (.diagRd sel), msgBuf := t.msgBuf, msgLen := t.msgLen, status := t.status
        attempts := 0, seq := .idle, strobes := t.strobes, draws := t.draws } ∧
      (sel.toNat ≠ 4 → t.strobes = s.strobes ∧ t.draws = s.draws) ∧
      ∃ u, exec (.diagRd sel) t = .next u ∧ u.msgLen = t.msgLen ∧ u.msgDir = t.msgDir ∧
        u.msgAddr = t.msgAddr ∧
        (sel.toNat ≠ 4 → u.msgBuf = t.msgBuf) ∧
        (sel.toNat = 4 → s.build.snapshot = .linesLink →
          u.msgBuf[0] &&& 0xFB#8 = t.msgBuf[0] &&& 0xFB#8 ∧
            ∀ i : Fin 8, i ≠ 0 → u.msgBuf[i] = t.msgBuf[i])

/-! ### Accepts and rejects -/

/-- The accept of XFER starts its phase: no poll, no event and no line activity yet
(30_encoding.md R84, 40_transfer_primitive.md R118). -/
def Obligations.XferStartsItsPhase : Prop :=
  ∀ (s : State) (m : Mode), s.status.busy = false → s.dir = modeDir m →
    exec (.xfer m) s = .next { s with
      cmd := encode (.xfer m)
      status := Status.accepted
      attempts := 0
      seq := .xfer m
      tmr := s.ceil }

/-- The accept of CTRL, and of FWD on a Control message, latches the request, clears `CTL_T`, asserts
attention and starts address phase 0 (41_transactions.md R140, R142, 42_dispatch.md R182). -/
def Obligations.ControlTransactionsStart : Prop :=
  ∀ s : State, TransactionReady s →
    let started (i : Instr) (c : CtlCmd) : Prop :=
      exec i s = .next { s with
        cmd := encode i
        status := Status.accepted
        attempts := 0
        la := s.msgAddr
        ll := s.msgLen
        ctlT := Vector.replicate 13 0
        attn := true
        trace := s.trace ++ [.attnOn]
        seq := .control c (.addr 0)
        tmr := s.ceil }
    started .ctrl .ctrl ∧ (s.msgDir = .control → ∀ e, started (.fwd e) (.fwd e))

/-- The accept of MON, MON_Q, MON_RETRY, and of FWD on a Monitor message, latches the request, counts
the attempt, clears `MON_T`, asserts attention and starts address phase 0; the first attempt of the
retrying commands is the quiet one (41_transactions.md R140, R150, 42_dispatch.md R180, R182). -/
def Obligations.MonitorTransactionsStart : Prop :=
  ∀ s : State, TransactionReady s →
    let started (i : Instr) (c : MonCmd) (quiet : Bool) : Prop :=
      exec i s = .next { s with
        cmd := encode i
        status := Status.accepted
        attempts := 1
        la := s.msgAddr
        ll := s.msgLen
        q := quiet
        tof := false
        monT := Vector.replicate 14 0
        attn := true
        trace := s.trace ++ [.attnOn]
        seq := .monitor c (.addr 0)
        tmr := s.ceil }
    started .mon .mon false ∧ started .monQ .monQ true ∧ started .monRetry .monRetry true ∧
      (s.msgDir = .monitor → ∀ e, started (.fwd e) (.fwd e) true)

/-- The accept checks of a command in their order: the selector of DIAG_RD, the direction of XFER, and
for a transaction the lines before the length (60_exceptions.md R224). -/
def Obligations.AcceptChecksInOrder : Prop :=
  ∀ s : State, s.status.busy = false →
    (∀ sel : BitVec 3, 4 < sel.toNat → AcceptRejects (.diagRd sel) s .badSelect) ∧
    (∀ m, s.dir ≠ modeDir m → AcceptRejects (.xfer m) s .lineState) ∧
    (∀ i, isTransaction i = true → RejectedUnlessReady i s)

/-- A rejected command has changed nothing but `CMD`, `STATUS`, `ATTEMPTS` and `SEQ`, and `STATUS` reads
`0x02 | code << 5` (60_exceptions.md R221): whatever byte was written, if the block is not busy after
the step and has not succeeded, the step was such a reject. `LA` and `LL` are unspecified after it.
The byte `STATUS` reads as, for every content (10_state.md R28): `BUSY`, `DONE`, `OK` and `TO` in bits 0
to 3, bit 4 zero, and in bits 7:5 the code's number (60_exceptions.md R223). -/
def Obligations.RejectsArePrecise : Prop :=
  (∀ st : Status,
    st.byte.getLsbD 0 = st.busy ∧ st.byte.getLsbD 1 = st.done ∧ st.byte.getLsbD 2 = st.ok ∧
      st.byte.getLsbD 3 = st.timeout ∧ st.byte.getLsbD 4 = false ∧
      (st.byte.extractLsb' 5 3).toNat =
        match st.ecode with
        | .none => 0
        | .illegalOp => 1
        | .reservedField => 2
        | .badSelect => 3
        | .lineState => 4
        | .malformedLength => 5
        | .peerTimeout => 6
        | .protocolViolation => 7) ∧
  ∀ (s t : State) (c : Byte) (rest : List Move),
    s.status.busy = false → s.agenda = .write 0x00 1 c :: rest → step s = .next t →
    t.status.busy = false → t.status.ok = false →
    t = { s with
      agenda := rest, cmd := c, status := t.status, attempts := 0, seq := .idle, la := t.la
      ll := t.ll } ∧
      t.status.done = true ∧ t.status.timeout = false ∧
      t.status.byte = 0x02#8 ||| (t.status.ecode.code.setWidth 8 <<< 5) ∧ t.status.ecode ≠ .none

/-! ### The exchange -/

/-- The countdown laws (40_transfer_primitive.md R111): a phase whose strobe is first seen after `n`
failed polls, `n < CEIL`, ends at its poll `n + 1` with the remainder `CEIL - n`, in 1..CEIL; one that
sees no strobe ends at poll `CEIL` with the remainder 0 and sets `TO`; until then the countdown is in
1..CEIL and the same phase goes on. -/
def Obligations.CountdownLaws : Prop :=
  ∀ s : State, s.seq ≠ .idle → s.tmr = s.ceil →
    (∀ (n : Nat) (rest : List Bool), n < s.ceil.toNat →
      s.strobes = List.replicate n false ++ true :: rest →
      let p : State := { s with
        tmr := remainder s.build n
        strobes := rest
        trace := s.trace ++ failedPolls n ++ [.poll true] }
      blockMoves (n + 1) s = p.endPhase ∧ p.phaseOk = true ∧
        p.tmr.toNat = s.ceil.toNat + 1 - (n + 1) ∧ 1 ≤ p.tmr.toNat ∧ p.tmr.toNat ≤ s.ceil.toNat) ∧
    (∀ rest : List Bool, s.strobes = List.replicate s.ceil.toNat false ++ rest →
      let p : State := { s with
        tmr := 0
        strobes := rest
        trace := s.trace ++ failedPolls s.ceil.toNat }
      blockMoves s.ceil.toNat s = p.endPhase ∧ p.phaseOk = false ∧
        (blockMoves s.ceil.toNat s).status.timeout = true) ∧
    (∀ (j n : Nat) (rest : List Bool), j ≤ n → j < s.ceil.toNat →
      s.strobes = List.replicate n false ++ rest →
      blockMoves j s = { s with
        tmr := remainder s.build j
        strobes := List.replicate (n - j) false ++ rest
        trace := s.trace ++ failedPolls j } ∧
      (remainder s.build j).toNat = s.ceil.toNat - j)

/-- Steps (2) and (3) of an exchange (R112, R113, R114): a write drives its byte, a read takes the data
lines, one ack pulse follows, and ACK is low again; after a timeout `TO` is set, and the leg and the
pulse are performed only with `ACK_ON_TIMEOUT`. -/
def Obligations.DataLegAndAckPulse : Prop :=
  ∀ s : State,
    let marked : Status := if s.tmr = 0 then { s.status with timeout := true } else s.status
    (s.tmr = 0 → s.build.ackOnTimeout = false →
      s.endExchange = { s with status := marked } ∧ s.captured = none) ∧
    (s.tmr ≠ 0 ∨ s.build.ackOnTimeout = true →
      (s.seq.mode = .write →
        s.endExchange = { s with
          status := marked, dout := s.byteOut, ack := false
          trace := s.trace ++ [.drive s.byteOut, .ackPulse] } ∧ s.captured = none) ∧
      (s.seq.mode = .read → ∀ b bs, s.dins = b :: bs →
        s.endExchange = { s with
          status := marked, dins := bs, ack := false
          trace := s.trace ++ [.sense b, .ackPulse] } ∧ s.captured = some b))

/-- Each data leg is followed by exactly one ack pulse and none occurs elsewhere: a step adds as many
ack pulses as data legs to the trace (R113). -/
def Obligations.OneAckPulsePerDataLeg : Prop :=
  ∀ s t : State, step s = .next t →
    countEvents isAckPulse t.trace + countEvents isDataLeg s.trace =
      countEvents isDataLeg t.trace + countEvents isAckPulse s.trace

/-! ### The polling commands as a whole -/

/-- `XFER` (R118): rejected with `LINE_STATE` where the direction does not match; otherwise it runs, for
every behaviour of the peer, to the state its pseudocode gives, in at most `CEIL` polls. -/
def Obligations.XferRunsItsPseudocode : Prop :=
  (encode (.xfer .write) = 0x01 ∧ encode (.xfer .read) = 0x11) ∧
  ∀ (s : State) (m : Mode), s.status.busy = false →
    (s.dir ≠ modeDir m → AcceptRejects (.xfer m) s .lineState) ∧
    (s.dir = modeDir m →
      RunsTo (.xfer m) s s.ceil.toNat (wholeXfer m (s.accepted (.xfer m))))

/-- `CTRL` (41_transactions.md R142): rejected by the accept checks, or run, for every behaviour of the
peer, to the state its pseudocode gives, in at most `13 * CEIL` polls. -/
def Obligations.CtrlRunsItsPseudocode : Prop :=
  encode .ctrl = 0x04 ∧
  ∀ s : State, s.status.busy = false →
    RejectedUnlessReady .ctrl s ∧
    (TransactionReady s → RunsTo .ctrl s (13 * s.ceil.toNat) (wholeCtrl (s.accepted .ctrl)))

/-- `MON` and `MON_Q` (R150, R157, R158): rejected by the accept checks, or run, for every behaviour of
the peer, to the state their pseudocode gives, in at most `14 * CEIL` polls. -/
def Obligations.MonitorRunsItsPseudocode : Prop :=
  (encode .mon = 0x05 ∧ encode .monQ = 0x06) ∧
  ∀ s : State, s.status.busy = false →
    (RejectedUnlessReady .mon s ∧ RejectedUnlessReady .monQ s) ∧
    (TransactionReady s →
      RunsTo .mon s (14 * s.ceil.toNat) (wholeMon (s.accepted .mon)) ∧
      RunsTo .monQ s (14 * s.ceil.toNat) (wholeMonQ (s.accepted .monQ)))

/-- `MON_RETRY` and `FWD` (42_dispatch.md R180, R182): rejected by the accept checks, or run, for every
behaviour of the peer, to the state their pseudocode gives, in at most `28 * CEIL` polls. -/
def Obligations.RetryAndForwardRunTheirPseudocode : Prop :=
  (encode .monRetry = 0x07 ∧ encode (.fwd .monitorForward) = 0x08 ∧
    encode (.fwd .controlForward) = 0x18) ∧
  ∀ s : State, s.status.busy = false →
    (RejectedUnlessReady .monRetry s ∧ ∀ e, RejectedUnlessReady (.fwd e) s) ∧
    (TransactionReady s →
      RunsTo .monRetry s (28 * s.ceil.toNat) (wholeMonRetry (s.accepted .monRetry)) ∧
      ∀ e, RunsTo (.fwd e) s (28 * s.ceil.toNat) (wholeFwd (s.accepted (.fwd e))))

/-- Every command ends within the bound of 70_reset_and_hazards.md R260, whatever the peer does: at most
`P` moves of the block after its accept, each of them one strobe poll. -/
def Obligations.EveryCommandEnds : Prop :=
  ∀ (i : Instr) (s : State), s.status.busy = false →
    ∃ t0 p, exec i s = .next t0 ∧ p ≤ pollBound i s.msgDir s.ceil.toNat ∧
      (t0.seq ≠ .idle → 1 ≤ p) ∧
      (blockMoves p t0).seq = .idle ∧ (blockMoves p t0).status.busy = false ∧
      (blockMoves p t0).status.done = true ∧
      countEvents isPoll (blockMoves p t0).trace = countEvents isPoll s.trace + p

/-- A Control transaction that never times out transmits the four address bytes LSB first, the length,
then exactly `length` payload bytes in order, one ack pulse per byte and no extras, whatever the
strobe's delays below `CEIL` are; the remainders are in `CTL_T`, `DOUT` holds the last byte of the frame,
and the message and every other register but the hidden `TMR`, `LA` and `LL` are unchanged
(30_encoding.md R88, 41_transactions.md R142). -/
def Obligations.ControlTransmitsItsFrame : Prop :=
  ∀ (i : Instr) (s : State) (waits : List Nat) (rest : List Bool),
    TransactionReady s → runsControl i s.msgDir = true →
    waits.length = 5 + s.msgLen.toNat → (∀ n ∈ waits, n < s.ceil.toNat) →
    s.strobes = strobesAfter waits ++ rest →
    ∃ t0 t, exec i s = .next t0 ∧ blockMoves (waits.map (· + 1)).sum t0 = t ∧
      t.seq = .idle ∧ t.status = statusSuccess ∧ t.attempts = 0 ∧ t.cmd = encode i ∧
      t.trace = s.trace ++ [.attnOn] ++
        (List.zipWith writePhase waits (controlFrame s.msgAddr s.msgLen s.msgBuf)).flatten ++
        [.attnOff] ∧
      (∀ k : Fin 13, t.ctlT[k] =
        match waits[k.val]? with
        | some n => remainder s.build n
        | none => 0) ∧
      LinesDefault t ∧ t.ack = false ∧
      some t.dout = (controlFrame s.msgAddr s.msgLen s.msgBuf).getLast? ∧
      t.strobes = rest ∧ t.msgDir = s.msgDir ∧
      t.msgAddr = s.msgAddr ∧ t.msgLen = s.msgLen ∧ t.msgBuf = s.msgBuf ∧ t.monT = s.monT ∧
      t.rlen = s.rlen ∧ t.xferData = s.xferData ∧ t.xferT = s.xferT ∧ t.cmdArg = s.cmdArg ∧
      t.link = s.link ∧ t.refused = s.refused ∧ t.dins = s.dins ∧ t.la = s.msgAddr ∧
      t.ll = s.msgLen ∧ t.q = s.q ∧ t.tof = s.tof ∧ t.build = s.build ∧ t.agenda = s.agenda ∧
      t.draws = s.draws ∧ t.reads = s.reads

/-- A Monitor transaction that never times out and gets a reply of at most 8 bytes delivers it: the
request goes out, the lines turn to sense and back, `MSG_LEN` and `MSG_BUF` hold the reply, the bytes
past it are unchanged, `DOUT` holds the request length, the last byte driven, and the direction and
every other register but the hidden ones are unchanged (30_encoding.md R89, 41_transactions.md R150, R160 (a)). -/
def Obligations.MonitorDeliversTheReply : Prop :=
  ∀ (i : Instr) (s : State) (waits : List Nat) (rest : List Bool) (reply more : List Byte),
    TransactionReady s → runsMonitor i s.msgDir = true → reply.length ≤ 8 →
    waits.length = 6 + reply.length → (∀ n ∈ waits, n < s.ceil.toNat) →
    s.strobes = strobesAfter waits ++ rest →
    s.dins = BitVec.ofNat 8 reply.length :: reply ++ more →
    ∃ t0 t, exec i s = .next t0 ∧ blockMoves (waits.map (· + 1)).sum t0 = t ∧
      t.seq = .idle ∧ t.status = statusSuccess ∧ t.attempts = 1 ∧ t.cmd = encode i ∧
      t.trace = s.trace ++ [.attnOn] ++
        (List.zipWith writePhase (waits.take 5) (monitorRequest s.msgAddr s.msgLen)).flatten ++
        [.dirSense] ++
        (List.zipWith readPhase (waits.drop 5) (BitVec.ofNat 8 reply.length :: reply)).flatten ++
        [.dirDrive, .attnOff] ∧
      (∀ k : Fin 14, t.monT[k] =
        match waits[k.val]? with
        | some n => remainder s.build n
        | none => 0) ∧
      t.msgLen = BitVec.ofNat 8 reply.length ∧ t.rlen = BitVec.ofNat 8 reply.length ∧
      (∀ j : Fin 8, t.msgBuf[j] = reply.getD j.val s.msgBuf[j]) ∧
      LinesDefault t ∧ t.ack = false ∧ t.dout = s.msgLen ∧ t.strobes = rest ∧ t.dins = more ∧
      t.msgDir = s.msgDir ∧ t.msgAddr = s.msgAddr ∧ t.ctlT = s.ctlT ∧ t.xferData = s.xferData ∧
      t.xferT = s.xferT ∧ t.cmdArg = s.cmdArg ∧ t.link = s.link ∧ t.refused = s.refused ∧
      t.la = s.msgAddr ∧ t.ll = s.msgLen ∧ t.tof = false ∧ t.build = s.build ∧
      t.agenda = s.agenda ∧ t.draws = s.draws ∧ t.reads = s.reads

/-- MON_Q is MON without the overwrite (41_transactions.md R158, R156): for the same draws both end at the
same move of the block, with the same trace, timers, `RLEN`, `STATUS` and captures; the states differ
in `CMD`, in the flag `Q`, and, after a failure, in that MON has overwritten the message. -/
def Obligations.QuietDiffersByTheOverwrite : Prop :=
  ∀ s : State, TransactionReady s →
    ∃ t0 u0 k, exec .mon s = .next t0 ∧ exec .monQ s = .next u0 ∧ k ≤ 14 * s.ceil.toNat ∧
      (blockMoves k t0).seq = .idle ∧
      blockMoves k t0 =
        let u := blockMoves k u0
        { u with
          cmd := encode .mon
          q := false
          msgDir := if u.status.ok then u.msgDir else .control
          msgLen := if u.status.ok then u.msgLen else 0 }

/-- A first address phase without a strobe aborts: the one byte that `ACK_ON_TIMEOUT` asks for, attention
off, `STATUS = 0xCA`, every slot of the array 0, and `DIR` never left drive. CTRL leaves the message
alone, MON overwrites it to Control with length 0, and MON_Q leaves it alone (30_encoding.md R93 (a),
41_transactions.md R142, R151, R156, R158). -/
def Obligations.FirstPhaseTimeoutAborts : Prop :=
  ∀ (s : State) (rest : List Bool), TransactionReady s →
    s.strobes = List.replicate s.ceil.toNat false ++ rest →
    let aborted (i : Instr) (t : State) : Prop :=
      (∃ t0, exec i s = .next t0 ∧ blockMoves s.ceil.toNat t0 = t) ∧
        t.seq = .idle ∧ t.status = statusTimeout ∧ t.cmd = encode i ∧ LinesDefault t ∧
        t.trace = s.trace ++ [.attnOn] ++ timedOutWrite s.build (byteOf s.msgAddr 0) ++ [.attnOff] ∧
        t.strobes = rest ∧ t.dins = s.dins ∧ t.msgAddr = s.msgAddr ∧ t.msgBuf = s.msgBuf ∧
        t.rlen = s.rlen ∧ t.xferData = s.xferData ∧ t.xferT = s.xferT
    (∃ t, aborted .ctrl t ∧ t.attempts = 0 ∧ t.ctlT = Vector.replicate 13 0 ∧ t.monT = s.monT ∧
      t.msgDir = s.msgDir ∧ t.msgLen = s.msgLen) ∧
    (∃ t, aborted .mon t ∧ t.attempts = 1 ∧ t.monT = Vector.replicate 14 0 ∧ t.ctlT = s.ctlT ∧
      t.msgDir = .control ∧ t.msgLen = 0) ∧
    (∃ t, aborted .monQ t ∧ t.attempts = 1 ∧ t.monT = Vector.replicate 14 0 ∧ t.ctlT = s.ctlT ∧
      t.msgDir = s.msgDir ∧ t.msgLen = s.msgLen)

/-- A Monitor request that fails once, here by no strobe in its first phase, and then succeeds returns
overall success having performed exactly two transactions, with the direction kept
(42_dispatch.md R180, R181 (a)). -/
def Obligations.RetrySucceedsAfterOneFailure : Prop :=
  ∀ (i : Instr) (s : State) (waits : List Nat) (rest : List Bool) (reply more : List Byte),
    TransactionReady s → (i = .monRetry ∨ (∃ e, i = .fwd e) ∧ s.msgDir = .monitor) →
    reply.length ≤ 8 → waits.length = 6 + reply.length → (∀ n ∈ waits, n < s.ceil.toNat) →
    s.strobes = List.replicate s.ceil.toNat false ++ strobesAfter waits ++ rest →
    s.dins = BitVec.ofNat 8 reply.length :: reply ++ more →
    ∃ t0 t, exec i s = .next t0 ∧
      blockMoves (s.ceil.toNat + (waits.map (· + 1)).sum) t0 = t ∧
      t.seq = .idle ∧ t.attempts = 2 ∧
      t.status = { statusSuccess with timeout := true } ∧
      t.trace = s.trace ++ [.attnOn] ++ timedOutWrite s.build (byteOf s.msgAddr 0) ++ [.attnOff] ++
        [.attnOn] ++
        (List.zipWith writePhase (waits.take 5) (monitorRequest s.msgAddr s.msgLen)).flatten ++
        [.dirSense] ++
        (List.zipWith readPhase (waits.drop 5) (BitVec.ofNat 8 reply.length :: reply)).flatten ++
        [.dirDrive, .attnOff] ∧
      t.msgLen = BitVec.ofNat 8 reply.length ∧ t.msgDir = s.msgDir ∧
      (∀ j : Fin 8, t.msgBuf[j] = reply.getD j.val s.msgBuf[j]) ∧ LinesDefault t

/-! ### What one move of the block can do -/

/-- A command that ends restores the lines: on every exit path of a transaction `DIR = drive` and
`ATTN = 0` (41_transactions.md R155, R160 (d), 60_exceptions.md R227). -/
def Obligations.LinesRestoredOnEveryExit : Prop :=
  ∀ s : State, Inv s → (∀ m, s.seq ≠ .xfer m) → s.seq ≠ .idle → s.blockMove.seq = .idle →
    LinesDefault s.blockMove

/-- The end of a Monitor transaction (41_transactions.md R156, R160 (a), (b)): a success leaves a length
of at most 8 and the direction; a failure of a non-quiet transaction leaves direction Control, length
0 and `OK = 0`; a failed quiet one does not touch the direction. -/
def Obligations.MonitorOutcomes : Prop :=
  ∀ (s : State) (c : MonCmd) (ph : MonPhase), Inv s → s.seq = .monitor c ph →
    let t := s.blockMove
    t.seq = .idle →
    (t.status.ok = true → t.msgLen.toNat ≤ 8 ∧ t.msgLen = t.rlen ∧ t.msgDir = s.msgDir) ∧
    (t.status.ok = false → s.q = false → t.msgDir = .control ∧ t.msgLen = 0) ∧
    (t.status.ok = false → s.q = true → t.msgDir = s.msgDir) ∧
    (t.status.ok = false → t.status.ecode = .peerTimeout ∨ t.status.ecode = .protocolViolation)

/-- A response length above 8 is a `PROTOCOL_VIOLATION` (R153, 60_exceptions.md R225 (a)): the phase that
sees the strobe and captures `n > 8` ends MON with that code, `RLEN = n`, the overwrite and the lines
restored. -/
def Obligations.LongResponseIsAProtocolViolation : Prop :=
  ∀ (s : State) (n : Byte) (bs : List Byte) (rest : List Bool), Inv s →
    s.seq = .monitor .mon .rsl → s.strobes = true :: rest → s.dins = n :: bs → 8 < n.toNat →
    let t := s.blockMove
    t.seq = .idle ∧ t.status = { s.status with
      busy := false, done := true, ok := false, ecode := .protocolViolation } ∧
    t.rlen = n ∧ t.msgDir = .control ∧ t.msgLen = 0 ∧ LinesDefault t ∧ t.msgBuf = s.msgBuf ∧
    t.monT = s.monT.set 5 s.tmr

/-- The retry law (42_dispatch.md R181): a command that retries and fails has made two attempts; one that
succeeds ends with the attempt it is in, so with one where the first attempt succeeds; a command that
does not retry makes one. A move that changes the number of attempts is the failed end of a first,
quiet attempt, by the last failed poll of a phase or by a response length above 8; it ends that
transaction with AttnOff and begins the one non-quiet attempt with AttnOn and a cleared timer array.
No move makes a third. -/
def Obligations.AtMostOneRetry : Prop :=
  ∀ (s : State) (c : MonCmd) (ph : MonPhase), Inv s → s.seq = .monitor c ph →
    let t := s.blockMove
    (t.seq = .idle → t.status.ok = false → c.retries = true → t.attempts = 2) ∧
    (t.seq = .idle → t.status.ok = true → t.attempts = s.attempts) ∧
    (t.seq = .idle → c.retries = false → t.attempts = 1) ∧
    (t.attempts ≠ s.attempts →
      (s.strobe = false ∧ s.tmr = 1 ∨ s.strobe = true ∧ ph = .rsl ∧ 8 < t.rlen.toNat) ∧
        c.retries = true ∧ s.q = true ∧ s.attempts = 1 ∧ t.attempts = 2 ∧ t.q = false ∧
        t.seq = .monitor c (.addr 0) ∧ t.monT = Vector.replicate 14 0 ∧ t.msgDir = s.msgDir ∧
        ∃ events, t.trace = s.trace ++ events ++ [.attnOff, .attnOn])

/-- Slots ahead of the phase in progress are 0 in every run, and so a failure is located by its timer
array (41_transactions.md R141, 60_exceptions.md R226): after a Monitor failure by a timeout the
slots from the failing phase on are 0; after a `PROTOCOL_VIOLATION` the response-length slot is
not 0 and the later ones are; after a Control failure every slot is 0. -/
def Obligations.FailingPhaseIsInTheZeroTail : Prop :=
  (∀ s t : State, Inv s → SlotsAheadZero s → step s = .next t → SlotsAheadZero t) ∧
    ∀ s : State, Inv s → SlotsAheadZero s →
      let t := s.blockMove
      t.seq = .idle → t.status.ok = false →
      (∀ c ph, s.seq = .monitor c ph → t.status.ecode = .peerTimeout →
        ∀ k : Fin 14, ph.slot.val ≤ k.val → t.monT[k] = 0) ∧
      (∀ c ph, s.seq = .monitor c ph → t.status.ecode = .protocolViolation →
        ph = .rsl ∧ t.monT[5] ≠ 0 ∧ ∀ k : Fin 14, 6 ≤ k.val → t.monT[k] = 0) ∧
      (∀ c ph, s.seq = .control c ph → t.ctlT = Vector.replicate 13 0)

/-- A Control transaction writes no message register, never changes `DIR`, never retries, and leaves
`MON_T` alone (41_transactions.md R144, 42_dispatch.md R183): a move of the block in one ends the
command, or is one failed poll after which the same phase waits on, or begins the phase of the
next slot. So no move goes back to an earlier phase or begins the phase in progress again. -/
def Obligations.ControlKeepsTheMessage : Prop :=
  ∀ (s : State) (c : CtlCmd) (ph : CtlPhase), s.seq = .control c ph →
    let t := s.blockMove
    t.msgDir = s.msgDir ∧ t.msgAddr = s.msgAddr ∧ t.msgLen = s.msgLen ∧ t.msgBuf = s.msgBuf ∧
      t.dir = s.dir ∧ t.attempts = s.attempts ∧ t.monT = s.monT ∧
      (t.seq = .idle ∨
        (t.seq = .control c ph ∧ t.trace = s.trace ++ [.poll false] ∧ t.tmr = s.tmr - 1 ∧
          t.ctlT = s.ctlT) ∨
        ∃ ph', t.seq = .control c ph' ∧ ph'.slot.val = ph.slot.val + 1)

/-- Each timer array is changed only by a transaction of its own kind, and `XFER_T` and `XFER_DATA` only
by XFER: a step, other than a reset, that changes one is in such a transaction or begins it
(43_diagnostics.md R205). -/
def Obligations.TimerArraysAreIndependent : Prop :=
  ∀ s t : State, step s = .next t → (∀ rest, s.agenda ≠ .reset :: rest) →
    (t.ctlT ≠ s.ctlT → (∃ c ph, s.seq = .control c ph) ∨ ∃ c ph, t.seq = .control c ph) ∧
    (t.monT ≠ s.monT → (∃ c ph, s.seq = .monitor c ph) ∨ ∃ c ph, t.seq = .monitor c ph) ∧
    (t.xferT ≠ s.xferT ∨ t.xferData ≠ s.xferData → ∃ m, s.seq = .xfer m)

/-- The block never writes `MSG_ADDR`, `CMD`, `CMD_ARG`, `LINK` or `REFUSED`, and never acts on `LINK`:
its moves are the same whatever `LINK` is (10_state.md R22, R26, R27, R33). -/
def Obligations.BlockLeavesClientRegisters : Prop :=
  ∀ s : State,
    s.blockMove.msgAddr = s.msgAddr ∧ s.blockMove.cmd = s.cmd ∧ s.blockMove.cmdArg = s.cmdArg ∧
    s.blockMove.refused = s.refused ∧
    ∀ l, { s with link := l }.blockMove = { s.blockMove with link := l }

/-! ### The whole machine -/

/-- The invariant holds at power-on (70_reset_and_hazards.md R251). -/
def Obligations.InvariantAtPowerOn : Prop := Inv State.reset

/-- Every step keeps the invariant: the countdown never wraps, the direction fits the phase, ACK is low,
`BUSY` shows a running command, and the codes of STATUS are consistent (the rules are with `Inv`). -/
def Obligations.InvariantKeptByEveryStep : Prop :=
  ∀ s t : State, Inv s → step s = .next t → Inv t

/-- What the hidden registers hold before they are written is never observed (10_state.md R41,
70_reset_and_hazards.md R251): two states that differ in nothing else go on differing in nothing
else, and so show the client and the peer the same. The model's choice of zero for them at reset
(log 6) is therefore without effect. -/
def Obligations.HiddenRegistersAreUnobservable : Prop :=
  ∀ s t s' : State, SameVisible s t → step s = .next s' →
    ∃ t', step t = .next t' ∧ SameVisible s' t'

/-- The trace is never truncated: a step only appends to it (10_state.md R43). -/
def Obligations.TraceOnlyGrows : Prop :=
  ∀ s t : State, step s = .next t → ∃ events, t.trace = s.trace ++ events

/-- Once set, `REFUSED` is never cleared, by a reset neither (10_state.md R44). -/
def Obligations.RefusedIsNeverCleared : Prop :=
  ∀ s t : State, step s = .next t → s.refused = true → t.refused = true

/-- The build parameters never change, and `CEIL` reads a value in 1..0xFFFF at all times
(10_state.md R35, 00_scope.md R5). -/
def Obligations.CeilIsHardwired : Prop :=
  (∀ s t : State, step s = .next t → t.build = s.build) ∧
    (∀ s : State, 1 ≤ s.ceil.toNat ∧
      ∀ strobe, s.windowByte strobe 0x18 ++ s.windowByte strobe 0x19 = s.ceil)

/-- A ceiling of 0 is not admitted, nor one above 0xFFFF; every other one is, and is what `CEIL` reads
(00_scope.md R5). -/
def Obligations.CeilZeroIsNotAdmitted : Prop :=
  ∀ (n : Nat) (ack : Bool) (layout : SnapshotLayout),
    match Build.ofParameters n ack layout with
    | none => n = 0 ∨ 0xFFFF < n
    | some b => b.ceil.toNat = n ∧ b.ackOnTimeout = ack ∧ b.snapshot = layout

/-- The reset event, at any step boundary and also inside a command (70_reset_and_hazards.md R250, R252):
every register that the spec gives a reset value takes it, `Reset` is the only event, the earlier
trace and `REFUSED` stay. -/
def Obligations.ResetEventResetsEveryRegister : Prop :=
  ∀ (s : State) (rest : List Move), s.agenda = .reset :: rest →
    ∃ t, step s = .next t ∧ t.trace = s.trace ++ [.reset] ∧ t.refused = s.refused ∧
      t.msgAddr = 0 ∧ t.msgDir = .monitor ∧ t.msgLen = 0 ∧ t.msgBuf = Vector.replicate 8 0 ∧
      t.cmd = 0 ∧ t.cmdArg = 0 ∧ t.status.byte = 0 ∧ t.attempts = 0 ∧ t.xferData = 0 ∧
      t.rlen = 0 ∧ t.xferT = 0 ∧ t.link = .notReady ∧ t.dout = 0 ∧ t.dir = .drive ∧
      t.attn = false ∧ t.ack = false ∧ t.monT = Vector.replicate 14 0 ∧
      t.ctlT = Vector.replicate 13 0 ∧ t.seq = .idle

/-- The values of 70_reset_and_hazards.md R251 in the power-on state, with an empty trace and no
`REFUSED` mark (R250). -/
def Obligations.PowerOnValues : Prop :=
  let r := State.reset
  r.msgAddr = 0 ∧ r.msgDir = .monitor ∧ r.msgLen = 0 ∧ r.msgBuf = Vector.replicate 8 0 ∧
    r.cmd = 0 ∧ r.cmdArg = 0 ∧ r.status.byte = 0 ∧ r.attempts = 0 ∧ r.xferData = 0 ∧ r.rlen = 0 ∧
    r.xferT = 0 ∧ r.link = .notReady ∧ (∀ strobe, r.linesByte strobe &&& 0x0B = 0) ∧
    r.ceil = Config.build.ceil ∧ r.dout = 0 ∧ r.dir = .drive ∧ r.attn = false ∧ r.ack = false ∧
    r.monT = Vector.replicate 14 0 ∧ r.ctlT = Vector.replicate 13 0 ∧ r.seq = .idle ∧
    r.trace = [] ∧ r.refused = false

/-- A range-query reply is the low bound, then the high bound, each least significant byte first; it gives
its two bounds back, and the source's worked example is its bytes (30_encoding.md R94). -/
def Obligations.RangeReplyRoundTrip : Prop :=
  (∀ low high : Rca,
    rangeReply low high =
      [low.extractLsb' 0 8, low.extractLsb' 8 8, low.extractLsb' 16 8, low.extractLsb' 24 8,
        high.extractLsb' 0 8, high.extractLsb' 8 8, high.extractLsb' 16 8, high.extractLsb' 24 8] ∧
      rangeOfReply (rangeReply low high) = some (low, high)) ∧
    rangeReply 0x00020002 0x00020FFF = [0x02, 0x00, 0x02, 0x00, 0xFF, 0x0F, 0x02, 0x00]

/-- The client's `wait` ends, whatever the peer does: with it as the only move to come, a block that
runs a command, or has ended one, reaches a state with `DONE = 1` and an empty agenda
(30_encoding.md R99, 70_reset_and_hazards.md R260); `wait` as one move is the model's choice (log 16). -/
def Obligations.WaitEnds : Prop :=
  ∀ s : State, Inv s → s.agenda = [.await] → (s.seq ≠ .idle ∨ s.status.done = true) →
    ∃ k t, Runs k s t ∧ t.agenda = [] ∧ t.status.done = true ∧ t.seq = .idle
end

