-- ==== Sys2Proof/Laws/State.lean ====
section
/-! SUPPORT. One lemma per field of State and per named update: what the update writes into the field,
or that it leaves the field alone. With these no proof unfolds an update. -/

namespace Sys2Proof.Machine

/-! ### `State.emit` -/

@[simp] theorem State.emit_msgAddr (s : State) (e : WireEvent) :
    (s.emit e).msgAddr = s.msgAddr := rfl
@[simp] theorem State.emit_msgDir (s : State) (e : WireEvent) : (s.emit e).msgDir = s.msgDir := rfl
@[simp] theorem State.emit_msgLen (s : State) (e : WireEvent) : (s.emit e).msgLen = s.msgLen := rfl
@[simp] theorem State.emit_msgBuf (s : State) (e : WireEvent) : (s.emit e).msgBuf = s.msgBuf := rfl
@[simp] theorem State.emit_cmd (s : State) (e : WireEvent) : (s.emit e).cmd = s.cmd := rfl
@[simp] theorem State.emit_cmdArg (s : State) (e : WireEvent) : (s.emit e).cmdArg = s.cmdArg := rfl
@[simp] theorem State.emit_status (s : State) (e : WireEvent) : (s.emit e).status = s.status := rfl
@[simp] theorem State.emit_attempts (s : State) (e : WireEvent) :
    (s.emit e).attempts = s.attempts := rfl
@[simp] theorem State.emit_xferData (s : State) (e : WireEvent) :
    (s.emit e).xferData = s.xferData := rfl
@[simp] theorem State.emit_rlen (s : State) (e : WireEvent) : (s.emit e).rlen = s.rlen := rfl
@[simp] theorem State.emit_xferT (s : State) (e : WireEvent) : (s.emit e).xferT = s.xferT := rfl
@[simp] theorem State.emit_link (s : State) (e : WireEvent) : (s.emit e).link = s.link := rfl
@[simp] theorem State.emit_dout (s : State) (e : WireEvent) : (s.emit e).dout = s.dout := rfl
@[simp] theorem State.emit_dir (s : State) (e : WireEvent) : (s.emit e).dir = s.dir := rfl
@[simp] theorem State.emit_attn (s : State) (e : WireEvent) : (s.emit e).attn = s.attn := rfl
@[simp] theorem State.emit_ack (s : State) (e : WireEvent) : (s.emit e).ack = s.ack := rfl
@[simp] theorem State.emit_monT (s : State) (e : WireEvent) : (s.emit e).monT = s.monT := rfl
@[simp] theorem State.emit_ctlT (s : State) (e : WireEvent) : (s.emit e).ctlT = s.ctlT := rfl
@[simp] theorem State.emit_seq (s : State) (e : WireEvent) : (s.emit e).seq = s.seq := rfl
@[simp] theorem State.emit_tmr (s : State) (e : WireEvent) : (s.emit e).tmr = s.tmr := rfl
@[simp] theorem State.emit_la (s : State) (e : WireEvent) : (s.emit e).la = s.la := rfl
@[simp] theorem State.emit_ll (s : State) (e : WireEvent) : (s.emit e).ll = s.ll := rfl
@[simp] theorem State.emit_q (s : State) (e : WireEvent) : (s.emit e).q = s.q := rfl
@[simp] theorem State.emit_tof (s : State) (e : WireEvent) : (s.emit e).tof = s.tof := rfl
@[simp] theorem State.emit_trace (s : State) (e : WireEvent) :
    (s.emit e).trace = s.trace ++ [e] := rfl
@[simp] theorem State.emit_refused (s : State) (e : WireEvent) :
    (s.emit e).refused = s.refused := rfl
@[simp] theorem State.emit_build (s : State) (e : WireEvent) : (s.emit e).build = s.build := rfl
@[simp] theorem State.emit_agenda (s : State) (e : WireEvent) : (s.emit e).agenda = s.agenda := rfl
@[simp] theorem State.emit_strobes (s : State) (e : WireEvent) :
    (s.emit e).strobes = s.strobes := rfl
@[simp] theorem State.emit_dins (s : State) (e : WireEvent) : (s.emit e).dins = s.dins := rfl
@[simp] theorem State.emit_draws (s : State) (e : WireEvent) : (s.emit e).draws = s.draws := rfl
@[simp] theorem State.emit_reads (s : State) (e : WireEvent) : (s.emit e).reads = s.reads := rfl
@[simp] theorem State.emit_ceil (s : State) (e : WireEvent) : (s.emit e).ceil = s.ceil := rfl

/-! ### `State.attnOn` -/

@[simp] theorem State.attnOn_msgAddr (s : State) : (s.attnOn).msgAddr = s.msgAddr := rfl
@[simp] theorem State.attnOn_msgDir (s : State) : (s.attnOn).msgDir = s.msgDir := rfl
@[simp] theorem State.attnOn_msgLen (s : State) : (s.attnOn).msgLen = s.msgLen := rfl
@[simp] theorem State.attnOn_msgBuf (s : State) : (s.attnOn).msgBuf = s.msgBuf := rfl
@[simp] theorem State.attnOn_cmd (s : State) : (s.attnOn).cmd = s.cmd := rfl
@[simp] theorem State.attnOn_cmdArg (s : State) : (s.attnOn).cmdArg = s.cmdArg := rfl
@[simp] theorem State.attnOn_status (s : State) : (s.attnOn).status = s.status := rfl
@[simp] theorem State.attnOn_attempts (s : State) : (s.attnOn).attempts = s.attempts := rfl
@[simp] theorem State.attnOn_xferData (s : State) : (s.attnOn).xferData = s.xferData := rfl
@[simp] theorem State.attnOn_rlen (s : State) : (s.attnOn).rlen = s.rlen := rfl
@[simp] theorem State.attnOn_xferT (s : State) : (s.attnOn).xferT = s.xferT := rfl
@[simp] theorem State.attnOn_link (s : State) : (s.attnOn).link = s.link := rfl
@[simp] theorem State.attnOn_dout (s : State) : (s.attnOn).dout = s.dout := rfl
@[simp] theorem State.attnOn_dir (s : State) : (s.attnOn).dir = s.dir := rfl
@[simp] theorem State.attnOn_attn (s : State) : (s.attnOn).attn = true := rfl
@[simp] theorem State.attnOn_ack (s : State) : (s.attnOn).ack = s.ack := rfl
@[simp] theorem State.attnOn_monT (s : State) : (s.attnOn).monT = s.monT := rfl
@[simp] theorem State.attnOn_ctlT (s : State) : (s.attnOn).ctlT = s.ctlT := rfl
@[simp] theorem State.attnOn_seq (s : State) : (s.attnOn).seq = s.seq := rfl
@[simp] theorem State.attnOn_tmr (s : State) : (s.attnOn).tmr = s.tmr := rfl
@[simp] theorem State.attnOn_la (s : State) : (s.attnOn).la = s.la := rfl
@[simp] theorem State.attnOn_ll (s : State) : (s.attnOn).ll = s.ll := rfl
@[simp] theorem State.attnOn_q (s : State) : (s.attnOn).q = s.q := rfl
@[simp] theorem State.attnOn_tof (s : State) : (s.attnOn).tof = s.tof := rfl
@[simp] theorem State.attnOn_trace (s : State) : (s.attnOn).trace = s.trace ++ [.attnOn] := rfl
@[simp] theorem State.attnOn_refused (s : State) : (s.attnOn).refused = s.refused := rfl
@[simp] theorem State.attnOn_build (s : State) : (s.attnOn).build = s.build := rfl
@[simp] theorem State.attnOn_agenda (s : State) : (s.attnOn).agenda = s.agenda := rfl
@[simp] theorem State.attnOn_strobes (s : State) : (s.attnOn).strobes = s.strobes := rfl
@[simp] theorem State.attnOn_dins (s : State) : (s.attnOn).dins = s.dins := rfl
@[simp] theorem State.attnOn_draws (s : State) : (s.attnOn).draws = s.draws := rfl
@[simp] theorem State.attnOn_reads (s : State) : (s.attnOn).reads = s.reads := rfl
@[simp] theorem State.attnOn_ceil (s : State) : (s.attnOn).ceil = s.ceil := rfl

/-! ### `State.attnOff` -/

@[simp] theorem State.attnOff_msgAddr (s : State) : (s.attnOff).msgAddr = s.msgAddr := rfl
@[simp] theorem State.attnOff_msgDir (s : State) : (s.attnOff).msgDir = s.msgDir := rfl
@[simp] theorem State.attnOff_msgLen (s : State) : (s.attnOff).msgLen = s.msgLen := rfl
@[simp] theorem State.attnOff_msgBuf (s : State) : (s.attnOff).msgBuf = s.msgBuf := rfl
@[simp] theorem State.attnOff_cmd (s : State) : (s.attnOff).cmd = s.cmd := rfl
@[simp] theorem State.attnOff_cmdArg (s : State) : (s.attnOff).cmdArg = s.cmdArg := rfl
@[simp] theorem State.attnOff_status (s : State) : (s.attnOff).status = s.status := rfl
@[simp] theorem State.attnOff_attempts (s : State) : (s.attnOff).attempts = s.attempts := rfl
@[simp] theorem State.attnOff_xferData (s : State) : (s.attnOff).xferData = s.xferData := rfl
@[simp] theorem State.attnOff_rlen (s : State) : (s.attnOff).rlen = s.rlen := rfl
@[simp] theorem State.attnOff_xferT (s : State) : (s.attnOff).xferT = s.xferT := rfl
@[simp] theorem State.attnOff_link (s : State) : (s.attnOff).link = s.link := rfl
@[simp] theorem State.attnOff_dout (s : State) : (s.attnOff).dout = s.dout := rfl
@[simp] theorem State.attnOff_dir (s : State) : (s.attnOff).dir = s.dir := rfl
@[simp] theorem State.attnOff_attn (s : State) : (s.attnOff).attn = false := rfl
@[simp] theorem State.attnOff_ack (s : State) : (s.attnOff).ack = s.ack := rfl
@[simp] theorem State.attnOff_monT (s : State) : (s.attnOff).monT = s.monT := rfl
@[simp] theorem State.attnOff_ctlT (s : State) : (s.attnOff).ctlT = s.ctlT := rfl
@[simp] theorem State.attnOff_seq (s : State) : (s.attnOff).seq = s.seq := rfl
@[simp] theorem State.attnOff_tmr (s : State) : (s.attnOff).tmr = s.tmr := rfl
@[simp] theorem State.attnOff_la (s : State) : (s.attnOff).la = s.la := rfl
@[simp] theorem State.attnOff_ll (s : State) : (s.attnOff).ll = s.ll := rfl
@[simp] theorem State.attnOff_q (s : State) : (s.attnOff).q = s.q := rfl
@[simp] theorem State.attnOff_tof (s : State) : (s.attnOff).tof = s.tof := rfl
@[simp] theorem State.attnOff_trace (s : State) : (s.attnOff).trace = s.trace ++ [.attnOff] := rfl
@[simp] theorem State.attnOff_refused (s : State) : (s.attnOff).refused = s.refused := rfl
@[simp] theorem State.attnOff_build (s : State) : (s.attnOff).build = s.build := rfl
@[simp] theorem State.attnOff_agenda (s : State) : (s.attnOff).agenda = s.agenda := rfl
@[simp] theorem State.attnOff_strobes (s : State) : (s.attnOff).strobes = s.strobes := rfl
@[simp] theorem State.attnOff_dins (s : State) : (s.attnOff).dins = s.dins := rfl
@[simp] theorem State.attnOff_draws (s : State) : (s.attnOff).draws = s.draws := rfl
@[simp] theorem State.attnOff_reads (s : State) : (s.attnOff).reads = s.reads := rfl
@[simp] theorem State.attnOff_ceil (s : State) : (s.attnOff).ceil = s.ceil := rfl

/-! ### `State.dirDrive` -/

@[simp] theorem State.dirDrive_msgAddr (s : State) : (s.dirDrive).msgAddr = s.msgAddr := rfl
@[simp] theorem State.dirDrive_msgDir (s : State) : (s.dirDrive).msgDir = s.msgDir := rfl
@[simp] theorem State.dirDrive_msgLen (s : State) : (s.dirDrive).msgLen = s.msgLen := rfl
@[simp] theorem State.dirDrive_msgBuf (s : State) : (s.dirDrive).msgBuf = s.msgBuf := rfl
@[simp] theorem State.dirDrive_cmd (s : State) : (s.dirDrive).cmd = s.cmd := rfl
@[simp] theorem State.dirDrive_cmdArg (s : State) : (s.dirDrive).cmdArg = s.cmdArg := rfl
@[simp] theorem State.dirDrive_status (s : State) : (s.dirDrive).status = s.status := rfl
@[simp] theorem State.dirDrive_attempts (s : State) : (s.dirDrive).attempts = s.attempts := rfl
@[simp] theorem State.dirDrive_xferData (s : State) : (s.dirDrive).xferData = s.xferData := rfl
@[simp] theorem State.dirDrive_rlen (s : State) : (s.dirDrive).rlen = s.rlen := rfl
@[simp] theorem State.dirDrive_xferT (s : State) : (s.dirDrive).xferT = s.xferT := rfl
@[simp] theorem State.dirDrive_link (s : State) : (s.dirDrive).link = s.link := rfl
@[simp] theorem State.dirDrive_dout (s : State) : (s.dirDrive).dout = s.dout := rfl
@[simp] theorem State.dirDrive_dir (s : State) : (s.dirDrive).dir = .drive := rfl
@[simp] theorem State.dirDrive_attn (s : State) : (s.dirDrive).attn = s.attn := rfl
@[simp] theorem State.dirDrive_ack (s : State) : (s.dirDrive).ack = s.ack := rfl
@[simp] theorem State.dirDrive_monT (s : State) : (s.dirDrive).monT = s.monT := rfl
@[simp] theorem State.dirDrive_ctlT (s : State) : (s.dirDrive).ctlT = s.ctlT := rfl
@[simp] theorem State.dirDrive_seq (s : State) : (s.dirDrive).seq = s.seq := rfl
@[simp] theorem State.dirDrive_tmr (s : State) : (s.dirDrive).tmr = s.tmr := rfl
@[simp] theorem State.dirDrive_la (s : State) : (s.dirDrive).la = s.la := rfl
@[simp] theorem State.dirDrive_ll (s : State) : (s.dirDrive).ll = s.ll := rfl
@[simp] theorem State.dirDrive_q (s : State) : (s.dirDrive).q = s.q := rfl
@[simp] theorem State.dirDrive_tof (s : State) : (s.dirDrive).tof = s.tof := rfl
@[simp] theorem State.dirDrive_trace (s : State) :
    (s.dirDrive).trace = s.trace ++ [.dirDrive] := rfl
@[simp] theorem State.dirDrive_refused (s : State) : (s.dirDrive).refused = s.refused := rfl
@[simp] theorem State.dirDrive_build (s : State) : (s.dirDrive).build = s.build := rfl
@[simp] theorem State.dirDrive_agenda (s : State) : (s.dirDrive).agenda = s.agenda := rfl
@[simp] theorem State.dirDrive_strobes (s : State) : (s.dirDrive).strobes = s.strobes := rfl
@[simp] theorem State.dirDrive_dins (s : State) : (s.dirDrive).dins = s.dins := rfl
@[simp] theorem State.dirDrive_draws (s : State) : (s.dirDrive).draws = s.draws := rfl
@[simp] theorem State.dirDrive_reads (s : State) : (s.dirDrive).reads = s.reads := rfl
@[simp] theorem State.dirDrive_ceil (s : State) : (s.dirDrive).ceil = s.ceil := rfl

/-! ### `State.dirSense` -/

@[simp] theorem State.dirSense_msgAddr (s : State) : (s.dirSense).msgAddr = s.msgAddr := rfl
@[simp] theorem State.dirSense_msgDir (s : State) : (s.dirSense).msgDir = s.msgDir := rfl
@[simp] theorem State.dirSense_msgLen (s : State) : (s.dirSense).msgLen = s.msgLen := rfl
@[simp] theorem State.dirSense_msgBuf (s : State) : (s.dirSense).msgBuf = s.msgBuf := rfl
@[simp] theorem State.dirSense_cmd (s : State) : (s.dirSense).cmd = s.cmd := rfl
@[simp] theorem State.dirSense_cmdArg (s : State) : (s.dirSense).cmdArg = s.cmdArg := rfl
@[simp] theorem State.dirSense_status (s : State) : (s.dirSense).status = s.status := rfl
@[simp] theorem State.dirSense_attempts (s : State) : (s.dirSense).attempts = s.attempts := rfl
@[simp] theorem State.dirSense_xferData (s : State) : (s.dirSense).xferData = s.xferData := rfl
@[simp] theorem State.dirSense_rlen (s : State) : (s.dirSense).rlen = s.rlen := rfl
@[simp] theorem State.dirSense_xferT (s : State) : (s.dirSense).xferT = s.xferT := rfl
@[simp] theorem State.dirSense_link (s : State) : (s.dirSense).link = s.link := rfl
@[simp] theorem State.dirSense_dout (s : State) : (s.dirSense).dout = s.dout := rfl
@[simp] theorem State.dirSense_dir (s : State) : (s.dirSense).dir = .sense := rfl
@[simp] theorem State.dirSense_attn (s : State) : (s.dirSense).attn = s.attn := rfl
@[simp] theorem State.dirSense_ack (s : State) : (s.dirSense).ack = s.ack := rfl
@[simp] theorem State.dirSense_monT (s : State) : (s.dirSense).monT = s.monT := rfl
@[simp] theorem State.dirSense_ctlT (s : State) : (s.dirSense).ctlT = s.ctlT := rfl
@[simp] theorem State.dirSense_seq (s : State) : (s.dirSense).seq = s.seq := rfl
@[simp] theorem State.dirSense_tmr (s : State) : (s.dirSense).tmr = s.tmr := rfl
@[simp] theorem State.dirSense_la (s : State) : (s.dirSense).la = s.la := rfl
@[simp] theorem State.dirSense_ll (s : State) : (s.dirSense).ll = s.ll := rfl
@[simp] theorem State.dirSense_q (s : State) : (s.dirSense).q = s.q := rfl
@[simp] theorem State.dirSense_tof (s : State) : (s.dirSense).tof = s.tof := rfl
@[simp] theorem State.dirSense_trace (s : State) :
    (s.dirSense).trace = s.trace ++ [.dirSense] := rfl
@[simp] theorem State.dirSense_refused (s : State) : (s.dirSense).refused = s.refused := rfl
@[simp] theorem State.dirSense_build (s : State) : (s.dirSense).build = s.build := rfl
@[simp] theorem State.dirSense_agenda (s : State) : (s.dirSense).agenda = s.agenda := rfl
@[simp] theorem State.dirSense_strobes (s : State) : (s.dirSense).strobes = s.strobes := rfl
@[simp] theorem State.dirSense_dins (s : State) : (s.dirSense).dins = s.dins := rfl
@[simp] theorem State.dirSense_draws (s : State) : (s.dirSense).draws = s.draws := rfl
@[simp] theorem State.dirSense_reads (s : State) : (s.dirSense).reads = s.reads := rfl
@[simp] theorem State.dirSense_ceil (s : State) : (s.dirSense).ceil = s.ceil := rfl

/-! ### `State.pulseAck` -/

@[simp] theorem State.pulseAck_msgAddr (s : State) : (s.pulseAck).msgAddr = s.msgAddr := rfl
@[simp] theorem State.pulseAck_msgDir (s : State) : (s.pulseAck).msgDir = s.msgDir := rfl
@[simp] theorem State.pulseAck_msgLen (s : State) : (s.pulseAck).msgLen = s.msgLen := rfl
@[simp] theorem State.pulseAck_msgBuf (s : State) : (s.pulseAck).msgBuf = s.msgBuf := rfl
@[simp] theorem State.pulseAck_cmd (s : State) : (s.pulseAck).cmd = s.cmd := rfl
@[simp] theorem State.pulseAck_cmdArg (s : State) : (s.pulseAck).cmdArg = s.cmdArg := rfl
@[simp] theorem State.pulseAck_status (s : State) : (s.pulseAck).status = s.status := rfl
@[simp] theorem State.pulseAck_attempts (s : State) : (s.pulseAck).attempts = s.attempts := rfl
@[simp] theorem State.pulseAck_xferData (s : State) : (s.pulseAck).xferData = s.xferData := rfl
@[simp] theorem State.pulseAck_rlen (s : State) : (s.pulseAck).rlen = s.rlen := rfl
@[simp] theorem State.pulseAck_xferT (s : State) : (s.pulseAck).xferT = s.xferT := rfl
@[simp] theorem State.pulseAck_link (s : State) : (s.pulseAck).link = s.link := rfl
@[simp] theorem State.pulseAck_dout (s : State) : (s.pulseAck).dout = s.dout := rfl
@[simp] theorem State.pulseAck_dir (s : State) : (s.pulseAck).dir = s.dir := rfl
@[simp] theorem State.pulseAck_attn (s : State) : (s.pulseAck).attn = s.attn := rfl
@[simp] theorem State.pulseAck_ack (s : State) : (s.pulseAck).ack = false := rfl
@[simp] theorem State.pulseAck_monT (s : State) : (s.pulseAck).monT = s.monT := rfl
@[simp] theorem State.pulseAck_ctlT (s : State) : (s.pulseAck).ctlT = s.ctlT := rfl
@[simp] theorem State.pulseAck_seq (s : State) : (s.pulseAck).seq = s.seq := rfl
@[simp] theorem State.pulseAck_tmr (s : State) : (s.pulseAck).tmr = s.tmr := rfl
@[simp] theorem State.pulseAck_la (s : State) : (s.pulseAck).la = s.la := rfl
@[simp] theorem State.pulseAck_ll (s : State) : (s.pulseAck).ll = s.ll := rfl
@[simp] theorem State.pulseAck_q (s : State) : (s.pulseAck).q = s.q := rfl
@[simp] theorem State.pulseAck_tof (s : State) : (s.pulseAck).tof = s.tof := rfl
@[simp] theorem State.pulseAck_trace (s : State) :
    (s.pulseAck).trace = s.trace ++ [.ackPulse] := rfl
@[simp] theorem State.pulseAck_refused (s : State) : (s.pulseAck).refused = s.refused := rfl
@[simp] theorem State.pulseAck_build (s : State) : (s.pulseAck).build = s.build := rfl
@[simp] theorem State.pulseAck_agenda (s : State) : (s.pulseAck).agenda = s.agenda := rfl
@[simp] theorem State.pulseAck_strobes (s : State) : (s.pulseAck).strobes = s.strobes := rfl
@[simp] theorem State.pulseAck_dins (s : State) : (s.pulseAck).dins = s.dins := rfl
@[simp] theorem State.pulseAck_draws (s : State) : (s.pulseAck).draws = s.draws := rfl
@[simp] theorem State.pulseAck_reads (s : State) : (s.pulseAck).reads = s.reads := rfl
@[simp] theorem State.pulseAck_ceil (s : State) : (s.pulseAck).ceil = s.ceil := rfl

/-! ### `State.refuseAccess` -/

@[simp] theorem State.refuseAccess_msgAddr (s : State) : (s.refuseAccess).msgAddr = s.msgAddr := rfl
@[simp] theorem State.refuseAccess_msgDir (s : State) : (s.refuseAccess).msgDir = s.msgDir := rfl
@[simp] theorem State.refuseAccess_msgLen (s : State) : (s.refuseAccess).msgLen = s.msgLen := rfl
@[simp] theorem State.refuseAccess_msgBuf (s : State) : (s.refuseAccess).msgBuf = s.msgBuf := rfl
@[simp] theorem State.refuseAccess_cmd (s : State) : (s.refuseAccess).cmd = s.cmd := rfl
@[simp] theorem State.refuseAccess_cmdArg (s : State) : (s.refuseAccess).cmdArg = s.cmdArg := rfl
@[simp] theorem State.refuseAccess_status (s : State) : (s.refuseAccess).status = s.status := rfl
@[simp] theorem State.refuseAccess_attempts (s : State) :
    (s.refuseAccess).attempts = s.attempts := rfl
@[simp] theorem State.refuseAccess_xferData (s : State) :
    (s.refuseAccess).xferData = s.xferData := rfl
@[simp] theorem State.refuseAccess_rlen (s : State) : (s.refuseAccess).rlen = s.rlen := rfl
@[simp] theorem State.refuseAccess_xferT (s : State) : (s.refuseAccess).xferT = s.xferT := rfl
@[simp] theorem State.refuseAccess_link (s : State) : (s.refuseAccess).link = s.link := rfl
@[simp] theorem State.refuseAccess_dout (s : State) : (s.refuseAccess).dout = s.dout := rfl
@[simp] theorem State.refuseAccess_dir (s : State) : (s.refuseAccess).dir = s.dir := rfl
@[simp] theorem State.refuseAccess_attn (s : State) : (s.refuseAccess).attn = s.attn := rfl
@[simp] theorem State.refuseAccess_ack (s : State) : (s.refuseAccess).ack = s.ack := rfl
@[simp] theorem State.refuseAccess_monT (s : State) : (s.refuseAccess).monT = s.monT := rfl
@[simp] theorem State.refuseAccess_ctlT (s : State) : (s.refuseAccess).ctlT = s.ctlT := rfl
@[simp] theorem State.refuseAccess_seq (s : State) : (s.refuseAccess).seq = s.seq := rfl
@[simp] theorem State.refuseAccess_tmr (s : State) : (s.refuseAccess).tmr = s.tmr := rfl
@[simp] theorem State.refuseAccess_la (s : State) : (s.refuseAccess).la = s.la := rfl
@[simp] theorem State.refuseAccess_ll (s : State) : (s.refuseAccess).ll = s.ll := rfl
@[simp] theorem State.refuseAccess_q (s : State) : (s.refuseAccess).q = s.q := rfl
@[simp] theorem State.refuseAccess_tof (s : State) : (s.refuseAccess).tof = s.tof := rfl
@[simp] theorem State.refuseAccess_trace (s : State) : (s.refuseAccess).trace = s.trace := rfl
@[simp] theorem State.refuseAccess_refused (s : State) : (s.refuseAccess).refused = true := rfl
@[simp] theorem State.refuseAccess_build (s : State) : (s.refuseAccess).build = s.build := rfl
@[simp] theorem State.refuseAccess_agenda (s : State) : (s.refuseAccess).agenda = s.agenda := rfl
@[simp] theorem State.refuseAccess_strobes (s : State) : (s.refuseAccess).strobes = s.strobes := rfl
@[simp] theorem State.refuseAccess_dins (s : State) : (s.refuseAccess).dins = s.dins := rfl
@[simp] theorem State.refuseAccess_draws (s : State) : (s.refuseAccess).draws = s.draws := rfl
@[simp] theorem State.refuseAccess_reads (s : State) : (s.refuseAccess).reads = s.reads := rfl
@[simp] theorem State.refuseAccess_ceil (s : State) : (s.refuseAccess).ceil = s.ceil := rfl

/-! ### `State.reject` -/

@[simp] theorem State.reject_msgAddr (s : State) (code : ErrCode) :
    (s.reject code).msgAddr = s.msgAddr := rfl
@[simp] theorem State.reject_msgDir (s : State) (code : ErrCode) :
    (s.reject code).msgDir = s.msgDir := rfl
@[simp] theorem State.reject_msgLen (s : State) (code : ErrCode) :
    (s.reject code).msgLen = s.msgLen := rfl
@[simp] theorem State.reject_msgBuf (s : State) (code : ErrCode) :
    (s.reject code).msgBuf = s.msgBuf := rfl
@[simp] theorem State.reject_cmd (s : State) (code : ErrCode) : (s.reject code).cmd = s.cmd := rfl
@[simp] theorem State.reject_cmdArg (s : State) (code : ErrCode) :
    (s.reject code).cmdArg = s.cmdArg := rfl
@[simp] theorem State.reject_status (s : State) (code : ErrCode) :
    (s.reject code).status = Status.rejected code := rfl
@[simp] theorem State.reject_attempts (s : State) (code : ErrCode) :
    (s.reject code).attempts = 0 := rfl
@[simp] theorem State.reject_xferData (s : State) (code : ErrCode) :
    (s.reject code).xferData = s.xferData := rfl
@[simp] theorem State.reject_rlen (s : State) (code : ErrCode) :
    (s.reject code).rlen = s.rlen := rfl
@[simp] theorem State.reject_xferT (s : State) (code : ErrCode) :
    (s.reject code).xferT = s.xferT := rfl
@[simp] theorem State.reject_link (s : State) (code : ErrCode) :
    (s.reject code).link = s.link := rfl
@[simp] theorem State.reject_dout (s : State) (code : ErrCode) :
    (s.reject code).dout = s.dout := rfl
@[simp] theorem State.reject_dir (s : State) (code : ErrCode) : (s.reject code).dir = s.dir := rfl
@[simp] theorem State.reject_attn (s : State) (code : ErrCode) :
    (s.reject code).attn = s.attn := rfl
@[simp] theorem State.reject_ack (s : State) (code : ErrCode) : (s.reject code).ack = s.ack := rfl
@[simp] theorem State.reject_monT (s : State) (code : ErrCode) :
    (s.reject code).monT = s.monT := rfl
@[simp] theorem State.reject_ctlT (s : State) (code : ErrCode) :
    (s.reject code).ctlT = s.ctlT := rfl
@[simp] theorem State.reject_seq (s : State) (code : ErrCode) : (s.reject code).seq = .idle := rfl
@[simp] theorem State.reject_tmr (s : State) (code : ErrCode) : (s.reject code).tmr = s.tmr := rfl
@[simp] theorem State.reject_la (s : State) (code : ErrCode) : (s.reject code).la = s.la := rfl
@[simp] theorem State.reject_ll (s : State) (code : ErrCode) : (s.reject code).ll = s.ll := rfl
@[simp] theorem State.reject_q (s : State) (code : ErrCode) : (s.reject code).q = s.q := rfl
@[simp] theorem State.reject_tof (s : State) (code : ErrCode) : (s.reject code).tof = s.tof := rfl
@[simp] theorem State.reject_trace (s : State) (code : ErrCode) :
    (s.reject code).trace = s.trace := rfl
@[simp] theorem State.reject_refused (s : State) (code : ErrCode) :
    (s.reject code).refused = s.refused := rfl
@[simp] theorem State.reject_build (s : State) (code : ErrCode) :
    (s.reject code).build = s.build := rfl
@[simp] theorem State.reject_agenda (s : State) (code : ErrCode) :
    (s.reject code).agenda = s.agenda := rfl
@[simp] theorem State.reject_strobes (s : State) (code : ErrCode) :
    (s.reject code).strobes = s.strobes := rfl
@[simp] theorem State.reject_dins (s : State) (code : ErrCode) :
    (s.reject code).dins = s.dins := rfl
@[simp] theorem State.reject_draws (s : State) (code : ErrCode) :
    (s.reject code).draws = s.draws := rfl
@[simp] theorem State.reject_reads (s : State) (code : ErrCode) :
    (s.reject code).reads = s.reads := rfl
@[simp] theorem State.reject_ceil (s : State) (code : ErrCode) :
    (s.reject code).ceil = s.ceil := rfl

/-! ### `State.finish` -/

@[simp] theorem State.finish_msgAddr (s : State) (ok : Bool) (code : ErrCode) :
    (s.finish ok code).msgAddr = s.msgAddr := rfl
@[simp] theorem State.finish_msgDir (s : State) (ok : Bool) (code : ErrCode) :
    (s.finish ok code).msgDir = s.msgDir := rfl
@[simp] theorem State.finish_msgLen (s : State) (ok : Bool) (code : ErrCode) :
    (s.finish ok code).msgLen = s.msgLen := rfl
@[simp] theorem State.finish_msgBuf (s : State) (ok : Bool) (code : ErrCode) :
    (s.finish ok code).msgBuf = s.msgBuf := rfl
@[simp] theorem State.finish_cmd (s : State) (ok : Bool) (code : ErrCode) :
    (s.finish ok code).cmd = s.cmd := rfl
@[simp] theorem State.finish_cmdArg (s : State) (ok : Bool) (code : ErrCode) :
    (s.finish ok code).cmdArg = s.cmdArg := rfl
@[simp] theorem State.finish_status (s : State) (ok : Bool) (code : ErrCode) :
    (s.finish ok code).status = s.status.finished ok code := rfl
@[simp] theorem State.finish_attempts (s : State) (ok : Bool) (code : ErrCode) :
    (s.finish ok code).attempts = s.attempts := rfl
@[simp] theorem State.finish_xferData (s : State) (ok : Bool) (code : ErrCode) :
    (s.finish ok code).xferData = s.xferData := rfl
@[simp] theorem State.finish_rlen (s : State) (ok : Bool) (code : ErrCode) :
    (s.finish ok code).rlen = s.rlen := rfl
@[simp] theorem State.finish_xferT (s : State) (ok : Bool) (code : ErrCode) :
    (s.finish ok code).xferT = s.xferT := rfl
@[simp] theorem State.finish_link (s : State) (ok : Bool) (code : ErrCode) :
    (s.finish ok code).link = s.link := rfl
@[simp] theorem State.finish_dout (s : State) (ok : Bool) (code : ErrCode) :
    (s.finish ok code).dout = s.dout := rfl
@[simp] theorem State.finish_dir (s : State) (ok : Bool) (code : ErrCode) :
    (s.finish ok code).dir = s.dir := rfl
@[simp] theorem State.finish_attn (s : State) (ok : Bool) (code : ErrCode) :
    (s.finish ok code).attn = s.attn := rfl
@[simp] theorem State.finish_ack (s : State) (ok : Bool) (code : ErrCode) :
    (s.finish ok code).ack = s.ack := rfl
@[simp] theorem State.finish_monT (s : State) (ok : Bool) (code : ErrCode) :
    (s.finish ok code).monT = s.monT := rfl
@[simp] theorem State.finish_ctlT (s : State) (ok : Bool) (code : ErrCode) :
    (s.finish ok code).ctlT = s.ctlT := rfl
@[simp] theorem State.finish_seq (s : State) (ok : Bool) (code : ErrCode) :
    (s.finish ok code).seq = .idle := rfl
@[simp] theorem State.finish_tmr (s : State) (ok : Bool) (code : ErrCode) :
    (s.finish ok code).tmr = s.tmr := rfl
@[simp] theorem State.finish_la (s : State) (ok : Bool) (code : ErrCode) :
    (s.finish ok code).la = s.la := rfl
@[simp] theorem State.finish_ll (s : State) (ok : Bool) (code : ErrCode) :
    (s.finish ok code).ll = s.ll := rfl
@[simp] theorem State.finish_q (s : State) (ok : Bool) (code : ErrCode) :
    (s.finish ok code).q = s.q := rfl
@[simp] theorem State.finish_tof (s : State) (ok : Bool) (code : ErrCode) :
    (s.finish ok code).tof = s.tof := rfl
@[simp] theorem State.finish_trace (s : State) (ok : Bool) (code : ErrCode) :
    (s.finish ok code).trace = s.trace := rfl
@[simp] theorem State.finish_refused (s : State) (ok : Bool) (code : ErrCode) :
    (s.finish ok code).refused = s.refused := rfl
@[simp] theorem State.finish_build (s : State) (ok : Bool) (code : ErrCode) :
    (s.finish ok code).build = s.build := rfl
@[simp] theorem State.finish_agenda (s : State) (ok : Bool) (code : ErrCode) :
    (s.finish ok code).agenda = s.agenda := rfl
@[simp] theorem State.finish_strobes (s : State) (ok : Bool) (code : ErrCode) :
    (s.finish ok code).strobes = s.strobes := rfl
@[simp] theorem State.finish_dins (s : State) (ok : Bool) (code : ErrCode) :
    (s.finish ok code).dins = s.dins := rfl
@[simp] theorem State.finish_draws (s : State) (ok : Bool) (code : ErrCode) :
    (s.finish ok code).draws = s.draws := rfl
@[simp] theorem State.finish_reads (s : State) (ok : Bool) (code : ErrCode) :
    (s.finish ok code).reads = s.reads := rfl
@[simp] theorem State.finish_ceil (s : State) (ok : Bool) (code : ErrCode) :
    (s.finish ok code).ceil = s.ceil := rfl

/-! ### `State.latch` -/

@[simp] theorem State.latch_msgAddr (s : State) : (s.latch).msgAddr = s.msgAddr := rfl
@[simp] theorem State.latch_msgDir (s : State) : (s.latch).msgDir = s.msgDir := rfl
@[simp] theorem State.latch_msgLen (s : State) : (s.latch).msgLen = s.msgLen := rfl
@[simp] theorem State.latch_msgBuf (s : State) : (s.latch).msgBuf = s.msgBuf := rfl
@[simp] theorem State.latch_cmd (s : State) : (s.latch).cmd = s.cmd := rfl
@[simp] theorem State.latch_cmdArg (s : State) : (s.latch).cmdArg = s.cmdArg := rfl
@[simp] theorem State.latch_status (s : State) : (s.latch).status = s.status := rfl
@[simp] theorem State.latch_attempts (s : State) : (s.latch).attempts = s.attempts := rfl
@[simp] theorem State.latch_xferData (s : State) : (s.latch).xferData = s.xferData := rfl
@[simp] theorem State.latch_rlen (s : State) : (s.latch).rlen = s.rlen := rfl
@[simp] theorem State.latch_xferT (s : State) : (s.latch).xferT = s.xferT := rfl
@[simp] theorem State.latch_link (s : State) : (s.latch).link = s.link := rfl
@[simp] theorem State.latch_dout (s : State) : (s.latch).dout = s.dout := rfl
@[simp] theorem State.latch_dir (s : State) : (s.latch).dir = s.dir := rfl
@[simp] theorem State.latch_attn (s : State) : (s.latch).attn = s.attn := rfl
@[simp] theorem State.latch_ack (s : State) : (s.latch).ack = s.ack := rfl
@[simp] theorem State.latch_monT (s : State) : (s.latch).monT = s.monT := rfl
@[simp] theorem State.latch_ctlT (s : State) : (s.latch).ctlT = s.ctlT := rfl
@[simp] theorem State.latch_seq (s : State) : (s.latch).seq = s.seq := rfl
@[simp] theorem State.latch_tmr (s : State) : (s.latch).tmr = s.tmr := rfl
@[simp] theorem State.latch_la (s : State) : (s.latch).la = s.msgAddr := rfl
@[simp] theorem State.latch_ll (s : State) : (s.latch).ll = s.msgLen := rfl
@[simp] theorem State.latch_q (s : State) : (s.latch).q = s.q := rfl
@[simp] theorem State.latch_tof (s : State) : (s.latch).tof = s.tof := rfl
@[simp] theorem State.latch_trace (s : State) : (s.latch).trace = s.trace := rfl
@[simp] theorem State.latch_refused (s : State) : (s.latch).refused = s.refused := rfl
@[simp] theorem State.latch_build (s : State) : (s.latch).build = s.build := rfl
@[simp] theorem State.latch_agenda (s : State) : (s.latch).agenda = s.agenda := rfl
@[simp] theorem State.latch_strobes (s : State) : (s.latch).strobes = s.strobes := rfl
@[simp] theorem State.latch_dins (s : State) : (s.latch).dins = s.dins := rfl
@[simp] theorem State.latch_draws (s : State) : (s.latch).draws = s.draws := rfl
@[simp] theorem State.latch_reads (s : State) : (s.latch).reads = s.reads := rfl
@[simp] theorem State.latch_ceil (s : State) : (s.latch).ceil = s.ceil := rfl

/-! ### `State.startPhase` -/

@[simp] theorem State.startPhase_msgAddr (s : State) (p : Seq) :
    (s.startPhase p).msgAddr = s.msgAddr := rfl
@[simp] theorem State.startPhase_msgDir (s : State) (p : Seq) :
    (s.startPhase p).msgDir = s.msgDir := rfl
@[simp] theorem State.startPhase_msgLen (s : State) (p : Seq) :
    (s.startPhase p).msgLen = s.msgLen := rfl
@[simp] theorem State.startPhase_msgBuf (s : State) (p : Seq) :
    (s.startPhase p).msgBuf = s.msgBuf := rfl
@[simp] theorem State.startPhase_cmd (s : State) (p : Seq) : (s.startPhase p).cmd = s.cmd := rfl
@[simp] theorem State.startPhase_cmdArg (s : State) (p : Seq) :
    (s.startPhase p).cmdArg = s.cmdArg := rfl
@[simp] theorem State.startPhase_status (s : State) (p : Seq) :
    (s.startPhase p).status = s.status := rfl
@[simp] theorem State.startPhase_attempts (s : State) (p : Seq) :
    (s.startPhase p).attempts = s.attempts := rfl
@[simp] theorem State.startPhase_xferData (s : State) (p : Seq) :
    (s.startPhase p).xferData = s.xferData := rfl
@[simp] theorem State.startPhase_rlen (s : State) (p : Seq) : (s.startPhase p).rlen = s.rlen := rfl
@[simp] theorem State.startPhase_xferT (s : State) (p : Seq) :
    (s.startPhase p).xferT = s.xferT := rfl
@[simp] theorem State.startPhase_link (s : State) (p : Seq) : (s.startPhase p).link = s.link := rfl
@[simp] theorem State.startPhase_dout (s : State) (p : Seq) : (s.startPhase p).dout = s.dout := rfl
@[simp] theorem State.startPhase_dir (s : State) (p : Seq) : (s.startPhase p).dir = s.dir := rfl
@[simp] theorem State.startPhase_attn (s : State) (p : Seq) : (s.startPhase p).attn = s.attn := rfl
@[simp] theorem State.startPhase_ack (s : State) (p : Seq) : (s.startPhase p).ack = s.ack := rfl
@[simp] theorem State.startPhase_monT (s : State) (p : Seq) : (s.startPhase p).monT = s.monT := rfl
@[simp] theorem State.startPhase_ctlT (s : State) (p : Seq) : (s.startPhase p).ctlT = s.ctlT := rfl
@[simp] theorem State.startPhase_seq (s : State) (p : Seq) : (s.startPhase p).seq = p := rfl
@[simp] theorem State.startPhase_tmr (s : State) (p : Seq) : (s.startPhase p).tmr = s.ceil := rfl
@[simp] theorem State.startPhase_la (s : State) (p : Seq) : (s.startPhase p).la = s.la := rfl
@[simp] theorem State.startPhase_ll (s : State) (p : Seq) : (s.startPhase p).ll = s.ll := rfl
@[simp] theorem State.startPhase_q (s : State) (p : Seq) : (s.startPhase p).q = s.q := rfl
@[simp] theorem State.startPhase_tof (s : State) (p : Seq) : (s.startPhase p).tof = s.tof := rfl
@[simp] theorem State.startPhase_trace (s : State) (p : Seq) :
    (s.startPhase p).trace = s.trace := rfl
@[simp] theorem State.startPhase_refused (s : State) (p : Seq) :
    (s.startPhase p).refused = s.refused := rfl
@[simp] theorem State.startPhase_build (s : State) (p : Seq) :
    (s.startPhase p).build = s.build := rfl
@[simp] theorem State.startPhase_agenda (s : State) (p : Seq) :
    (s.startPhase p).agenda = s.agenda := rfl
@[simp] theorem State.startPhase_strobes (s : State) (p : Seq) :
    (s.startPhase p).strobes = s.strobes := rfl
@[simp] theorem State.startPhase_dins (s : State) (p : Seq) : (s.startPhase p).dins = s.dins := rfl
@[simp] theorem State.startPhase_draws (s : State) (p : Seq) :
    (s.startPhase p).draws = s.draws := rfl
@[simp] theorem State.startPhase_reads (s : State) (p : Seq) :
    (s.startPhase p).reads = s.reads := rfl
@[simp] theorem State.startPhase_ceil (s : State) (p : Seq) : (s.startPhase p).ceil = s.ceil := rfl

/-! ### `State.startControl` -/

@[simp] theorem State.startControl_msgAddr (s : State) (c : CtlCmd) :
    (s.startControl c).msgAddr = s.msgAddr := rfl
@[simp] theorem State.startControl_msgDir (s : State) (c : CtlCmd) :
    (s.startControl c).msgDir = s.msgDir := rfl
@[simp] theorem State.startControl_msgLen (s : State) (c : CtlCmd) :
    (s.startControl c).msgLen = s.msgLen := rfl
@[simp] theorem State.startControl_msgBuf (s : State) (c : CtlCmd) :
    (s.startControl c).msgBuf = s.msgBuf := rfl
@[simp] theorem State.startControl_cmd (s : State) (c : CtlCmd) :
    (s.startControl c).cmd = s.cmd := rfl
@[simp] theorem State.startControl_cmdArg (s : State) (c : CtlCmd) :
    (s.startControl c).cmdArg = s.cmdArg := rfl
@[simp] theorem State.startControl_status (s : State) (c : CtlCmd) :
    (s.startControl c).status = s.status := rfl
@[simp] theorem State.startControl_attempts (s : State) (c : CtlCmd) :
    (s.startControl c).attempts = s.attempts := rfl
@[simp] theorem State.startControl_xferData (s : State) (c : CtlCmd) :
    (s.startControl c).xferData = s.xferData := rfl
@[simp] theorem State.startControl_rlen (s : State) (c : CtlCmd) :
    (s.startControl c).rlen = s.rlen := rfl
@[simp] theorem State.startControl_xferT (s : State) (c : CtlCmd) :
    (s.startControl c).xferT = s.xferT := rfl
@[simp] theorem State.startControl_link (s : State) (c : CtlCmd) :
    (s.startControl c).link = s.link := rfl
@[simp] theorem State.startControl_dout (s : State) (c : CtlCmd) :
    (s.startControl c).dout = s.dout := rfl
@[simp] theorem State.startControl_dir (s : State) (c : CtlCmd) :
    (s.startControl c).dir = s.dir := rfl
@[simp] theorem State.startControl_attn (s : State) (c : CtlCmd) :
    (s.startControl c).attn = true := rfl
@[simp] theorem State.startControl_ack (s : State) (c : CtlCmd) :
    (s.startControl c).ack = s.ack := rfl
@[simp] theorem State.startControl_monT (s : State) (c : CtlCmd) :
    (s.startControl c).monT = s.monT := rfl
@[simp] theorem State.startControl_ctlT (s : State) (c : CtlCmd) :
    (s.startControl c).ctlT = Vector.replicate 13 0 := rfl
@[simp] theorem State.startControl_seq (s : State) (c : CtlCmd) :
    (s.startControl c).seq = .control c (.addr 0) := rfl
@[simp] theorem State.startControl_tmr (s : State) (c : CtlCmd) :
    (s.startControl c).tmr = s.ceil := rfl
@[simp] theorem State.startControl_la (s : State) (c : CtlCmd) : (s.startControl c).la = s.la := rfl
@[simp] theorem State.startControl_ll (s : State) (c : CtlCmd) : (s.startControl c).ll = s.ll := rfl
@[simp] theorem State.startControl_q (s : State) (c : CtlCmd) : (s.startControl c).q = s.q := rfl
@[simp] theorem State.startControl_tof (s : State) (c : CtlCmd) :
    (s.startControl c).tof = s.tof := rfl
@[simp] theorem State.startControl_trace (s : State) (c : CtlCmd) :
    (s.startControl c).trace = s.trace ++ [.attnOn] := rfl
@[simp] theorem State.startControl_refused (s : State) (c : CtlCmd) :
    (s.startControl c).refused = s.refused := rfl
@[simp] theorem State.startControl_build (s : State) (c : CtlCmd) :
    (s.startControl c).build = s.build := rfl
@[simp] theorem State.startControl_agenda (s : State) (c : CtlCmd) :
    (s.startControl c).agenda = s.agenda := rfl
@[simp] theorem State.startControl_strobes (s : State) (c : CtlCmd) :
    (s.startControl c).strobes = s.strobes := rfl
@[simp] theorem State.startControl_dins (s : State) (c : CtlCmd) :
    (s.startControl c).dins = s.dins := rfl
@[simp] theorem State.startControl_draws (s : State) (c : CtlCmd) :
    (s.startControl c).draws = s.draws := rfl
@[simp] theorem State.startControl_reads (s : State) (c : CtlCmd) :
    (s.startControl c).reads = s.reads := rfl
@[simp] theorem State.startControl_ceil (s : State) (c : CtlCmd) :
    (s.startControl c).ceil = s.ceil := rfl

/-! ### `State.startMonitor` -/

@[simp] theorem State.startMonitor_msgAddr (s : State) (c : MonCmd) (quiet : Bool) :
    (s.startMonitor c quiet).msgAddr = s.msgAddr := rfl
@[simp] theorem State.startMonitor_msgDir (s : State) (c : MonCmd) (quiet : Bool) :
    (s.startMonitor c quiet).msgDir = s.msgDir := rfl
@[simp] theorem State.startMonitor_msgLen (s : State) (c : MonCmd) (quiet : Bool) :
    (s.startMonitor c quiet).msgLen = s.msgLen := rfl
@[simp] theorem State.startMonitor_msgBuf (s : State) (c : MonCmd) (quiet : Bool) :
    (s.startMonitor c quiet).msgBuf = s.msgBuf := rfl
@[simp] theorem State.startMonitor_cmd (s : State) (c : MonCmd) (quiet : Bool) :
    (s.startMonitor c quiet).cmd = s.cmd := rfl
@[simp] theorem State.startMonitor_cmdArg (s : State) (c : MonCmd) (quiet : Bool) :
    (s.startMonitor c quiet).cmdArg = s.cmdArg := rfl
@[simp] theorem State.startMonitor_status (s : State) (c : MonCmd) (quiet : Bool) :
    (s.startMonitor c quiet).status = s.status := rfl
@[simp] theorem State.startMonitor_attempts (s : State) (c : MonCmd) (quiet : Bool) :
    (s.startMonitor c quiet).attempts = s.attempts + 1 := rfl
@[simp] theorem State.startMonitor_xferData (s : State) (c : MonCmd) (quiet : Bool) :
    (s.startMonitor c quiet).xferData = s.xferData := rfl
@[simp] theorem State.startMonitor_rlen (s : State) (c : MonCmd) (quiet : Bool) :
    (s.startMonitor c quiet).rlen = s.rlen := rfl
@[simp] theorem State.startMonitor_xferT (s : State) (c : MonCmd) (quiet : Bool) :
    (s.startMonitor c quiet).xferT = s.xferT := rfl
@[simp] theorem State.startMonitor_link (s : State) (c : MonCmd) (quiet : Bool) :
    (s.startMonitor c quiet).link = s.link := rfl
@[simp] theorem State.startMonitor_dout (s : State) (c : MonCmd) (quiet : Bool) :
    (s.startMonitor c quiet).dout = s.dout := rfl
@[simp] theorem State.startMonitor_dir (s : State) (c : MonCmd) (quiet : Bool) :
    (s.startMonitor c quiet).dir = s.dir := rfl
@[simp] theorem State.startMonitor_attn (s : State) (c : MonCmd) (quiet : Bool) :
    (s.startMonitor c quiet).attn = true := rfl
@[simp] theorem State.startMonitor_ack (s : State) (c : MonCmd) (quiet : Bool) :
    (s.startMonitor c quiet).ack = s.ack := rfl
@[simp] theorem State.startMonitor_monT (s : State) (c : MonCmd) (quiet : Bool) :
    (s.startMonitor c quiet).monT = Vector.replicate 14 0 := rfl
@[simp] theorem State.startMonitor_ctlT (s : State) (c : MonCmd) (quiet : Bool) :
    (s.startMonitor c quiet).ctlT = s.ctlT := rfl
@[simp] theorem State.startMonitor_seq (s : State) (c : MonCmd) (quiet : Bool) :
    (s.startMonitor c quiet).seq = .monitor c (.addr 0) := rfl
@[simp] theorem State.startMonitor_tmr (s : State) (c : MonCmd) (quiet : Bool) :
    (s.startMonitor c quiet).tmr = s.ceil := rfl
@[simp] theorem State.startMonitor_la (s : State) (c : MonCmd) (quiet : Bool) :
    (s.startMonitor c quiet).la = s.la := rfl
@[simp] theorem State.startMonitor_ll (s : State) (c : MonCmd) (quiet : Bool) :
    (s.startMonitor c quiet).ll = s.ll := rfl
@[simp] theorem State.startMonitor_q (s : State) (c : MonCmd) (quiet : Bool) :
    (s.startMonitor c quiet).q = quiet := rfl
@[simp] theorem State.startMonitor_tof (s : State) (c : MonCmd) (quiet : Bool) :
    (s.startMonitor c quiet).tof = false := rfl
@[simp] theorem State.startMonitor_trace (s : State) (c : MonCmd) (quiet : Bool) :
    (s.startMonitor c quiet).trace = s.trace ++ [.attnOn] := rfl
@[simp] theorem State.startMonitor_refused (s : State) (c : MonCmd) (quiet : Bool) :
    (s.startMonitor c quiet).refused = s.refused := rfl
@[simp] theorem State.startMonitor_build (s : State) (c : MonCmd) (quiet : Bool) :
    (s.startMonitor c quiet).build = s.build := rfl
@[simp] theorem State.startMonitor_agenda (s : State) (c : MonCmd) (quiet : Bool) :
    (s.startMonitor c quiet).agenda = s.agenda := rfl
@[simp] theorem State.startMonitor_strobes (s : State) (c : MonCmd) (quiet : Bool) :
    (s.startMonitor c quiet).strobes = s.strobes := rfl
@[simp] theorem State.startMonitor_dins (s : State) (c : MonCmd) (quiet : Bool) :
    (s.startMonitor c quiet).dins = s.dins := rfl
@[simp] theorem State.startMonitor_draws (s : State) (c : MonCmd) (quiet : Bool) :
    (s.startMonitor c quiet).draws = s.draws := rfl
@[simp] theorem State.startMonitor_reads (s : State) (c : MonCmd) (quiet : Bool) :
    (s.startMonitor c quiet).reads = s.reads := rfl
@[simp] theorem State.startMonitor_ceil (s : State) (c : MonCmd) (quiet : Bool) :
    (s.startMonitor c quiet).ceil = s.ceil := rfl

/-! ### `State.endControl` -/

@[simp] theorem State.endControl_msgAddr (s : State) : (s.endControl).msgAddr = s.msgAddr := rfl
@[simp] theorem State.endControl_msgDir (s : State) : (s.endControl).msgDir = s.msgDir := rfl
@[simp] theorem State.endControl_msgLen (s : State) : (s.endControl).msgLen = s.msgLen := rfl
@[simp] theorem State.endControl_msgBuf (s : State) : (s.endControl).msgBuf = s.msgBuf := rfl
@[simp] theorem State.endControl_cmd (s : State) : (s.endControl).cmd = s.cmd := rfl
@[simp] theorem State.endControl_cmdArg (s : State) : (s.endControl).cmdArg = s.cmdArg := rfl
@[simp] theorem State.endControl_status (s : State) :
    (s.endControl).status = s.status.finished true .none := rfl
@[simp] theorem State.endControl_attempts (s : State) : (s.endControl).attempts = s.attempts := rfl
@[simp] theorem State.endControl_xferData (s : State) : (s.endControl).xferData = s.xferData := rfl
@[simp] theorem State.endControl_rlen (s : State) : (s.endControl).rlen = s.rlen := rfl
@[simp] theorem State.endControl_xferT (s : State) : (s.endControl).xferT = s.xferT := rfl
@[simp] theorem State.endControl_link (s : State) : (s.endControl).link = s.link := rfl
@[simp] theorem State.endControl_dout (s : State) : (s.endControl).dout = s.dout := rfl
@[simp] theorem State.endControl_dir (s : State) : (s.endControl).dir = s.dir := rfl
@[simp] theorem State.endControl_attn (s : State) : (s.endControl).attn = false := rfl
@[simp] theorem State.endControl_ack (s : State) : (s.endControl).ack = s.ack := rfl
@[simp] theorem State.endControl_monT (s : State) : (s.endControl).monT = s.monT := rfl
@[simp] theorem State.endControl_ctlT (s : State) : (s.endControl).ctlT = s.ctlT := rfl
@[simp] theorem State.endControl_seq (s : State) : (s.endControl).seq = .idle := rfl
@[simp] theorem State.endControl_tmr (s : State) : (s.endControl).tmr = s.tmr := rfl
@[simp] theorem State.endControl_la (s : State) : (s.endControl).la = s.la := rfl
@[simp] theorem State.endControl_ll (s : State) : (s.endControl).ll = s.ll := rfl
@[simp] theorem State.endControl_q (s : State) : (s.endControl).q = s.q := rfl
@[simp] theorem State.endControl_tof (s : State) : (s.endControl).tof = s.tof := rfl
@[simp] theorem State.endControl_trace (s : State) :
    (s.endControl).trace = s.trace ++ [.attnOff] := rfl
@[simp] theorem State.endControl_refused (s : State) : (s.endControl).refused = s.refused := rfl
@[simp] theorem State.endControl_build (s : State) : (s.endControl).build = s.build := rfl
@[simp] theorem State.endControl_agenda (s : State) : (s.endControl).agenda = s.agenda := rfl
@[simp] theorem State.endControl_strobes (s : State) : (s.endControl).strobes = s.strobes := rfl
@[simp] theorem State.endControl_dins (s : State) : (s.endControl).dins = s.dins := rfl
@[simp] theorem State.endControl_draws (s : State) : (s.endControl).draws = s.draws := rfl
@[simp] theorem State.endControl_reads (s : State) : (s.endControl).reads = s.reads := rfl
@[simp] theorem State.endControl_ceil (s : State) : (s.endControl).ceil = s.ceil := rfl

/-! ### `State.takeCommand` -/

@[simp] theorem State.takeCommand_msgAddr (s : State) (c : Byte) :
    (s.takeCommand c).msgAddr = s.msgAddr := rfl
@[simp] theorem State.takeCommand_msgDir (s : State) (c : Byte) :
    (s.takeCommand c).msgDir = s.msgDir := rfl
@[simp] theorem State.takeCommand_msgLen (s : State) (c : Byte) :
    (s.takeCommand c).msgLen = s.msgLen := rfl
@[simp] theorem State.takeCommand_msgBuf (s : State) (c : Byte) :
    (s.takeCommand c).msgBuf = s.msgBuf := rfl
@[simp] theorem State.takeCommand_cmd (s : State) (c : Byte) : (s.takeCommand c).cmd = c := rfl
@[simp] theorem State.takeCommand_cmdArg (s : State) (c : Byte) :
    (s.takeCommand c).cmdArg = s.cmdArg := rfl
@[simp] theorem State.takeCommand_status (s : State) (c : Byte) :
    (s.takeCommand c).status = s.status := rfl
@[simp] theorem State.takeCommand_attempts (s : State) (c : Byte) :
    (s.takeCommand c).attempts = s.attempts := rfl
@[simp] theorem State.takeCommand_xferData (s : State) (c : Byte) :
    (s.takeCommand c).xferData = s.xferData := rfl
@[simp] theorem State.takeCommand_rlen (s : State) (c : Byte) :
    (s.takeCommand c).rlen = s.rlen := rfl
@[simp] theorem State.takeCommand_xferT (s : State) (c : Byte) :
    (s.takeCommand c).xferT = s.xferT := rfl
@[simp] theorem State.takeCommand_link (s : State) (c : Byte) :
    (s.takeCommand c).link = s.link := rfl
@[simp] theorem State.takeCommand_dout (s : State) (c : Byte) :
    (s.takeCommand c).dout = s.dout := rfl
@[simp] theorem State.takeCommand_dir (s : State) (c : Byte) : (s.takeCommand c).dir = s.dir := rfl
@[simp] theorem State.takeCommand_attn (s : State) (c : Byte) :
    (s.takeCommand c).attn = s.attn := rfl
@[simp] theorem State.takeCommand_ack (s : State) (c : Byte) : (s.takeCommand c).ack = s.ack := rfl
@[simp] theorem State.takeCommand_monT (s : State) (c : Byte) :
    (s.takeCommand c).monT = s.monT := rfl
@[simp] theorem State.takeCommand_ctlT (s : State) (c : Byte) :
    (s.takeCommand c).ctlT = s.ctlT := rfl
@[simp] theorem State.takeCommand_seq (s : State) (c : Byte) : (s.takeCommand c).seq = s.seq := rfl
@[simp] theorem State.takeCommand_tmr (s : State) (c : Byte) : (s.takeCommand c).tmr = s.tmr := rfl
@[simp] theorem State.takeCommand_la (s : State) (c : Byte) : (s.takeCommand c).la = s.la := rfl
@[simp] theorem State.takeCommand_ll (s : State) (c : Byte) : (s.takeCommand c).ll = s.ll := rfl
@[simp] theorem State.takeCommand_q (s : State) (c : Byte) : (s.takeCommand c).q = s.q := rfl
@[simp] theorem State.takeCommand_tof (s : State) (c : Byte) : (s.takeCommand c).tof = s.tof := rfl
@[simp] theorem State.takeCommand_trace (s : State) (c : Byte) :
    (s.takeCommand c).trace = s.trace := rfl
@[simp] theorem State.takeCommand_refused (s : State) (c : Byte) :
    (s.takeCommand c).refused = s.refused := rfl
@[simp] theorem State.takeCommand_build (s : State) (c : Byte) :
    (s.takeCommand c).build = s.build := rfl
@[simp] theorem State.takeCommand_agenda (s : State) (c : Byte) :
    (s.takeCommand c).agenda = s.agenda := rfl
@[simp] theorem State.takeCommand_strobes (s : State) (c : Byte) :
    (s.takeCommand c).strobes = s.strobes := rfl
@[simp] theorem State.takeCommand_dins (s : State) (c : Byte) :
    (s.takeCommand c).dins = s.dins := rfl
@[simp] theorem State.takeCommand_draws (s : State) (c : Byte) :
    (s.takeCommand c).draws = s.draws := rfl
@[simp] theorem State.takeCommand_reads (s : State) (c : Byte) :
    (s.takeCommand c).reads = s.reads := rfl
@[simp] theorem State.takeCommand_ceil (s : State) (c : Byte) :
    (s.takeCommand c).ceil = s.ceil := rfl

/-! ### `State.accepted` -/

@[simp] theorem State.accepted_msgAddr (s : State) (i : Instr) :
    (s.accepted i).msgAddr = s.msgAddr := rfl
@[simp] theorem State.accepted_msgDir (s : State) (i : Instr) :
    (s.accepted i).msgDir = s.msgDir := rfl
@[simp] theorem State.accepted_msgLen (s : State) (i : Instr) :
    (s.accepted i).msgLen = s.msgLen := rfl
@[simp] theorem State.accepted_msgBuf (s : State) (i : Instr) :
    (s.accepted i).msgBuf = s.msgBuf := rfl
@[simp] theorem State.accepted_cmd (s : State) (i : Instr) : (s.accepted i).cmd = encode i := rfl
@[simp] theorem State.accepted_cmdArg (s : State) (i : Instr) :
    (s.accepted i).cmdArg = s.cmdArg := rfl
@[simp] theorem State.accepted_status (s : State) (i : Instr) :
    (s.accepted i).status = Status.accepted := rfl
@[simp] theorem State.accepted_attempts (s : State) (i : Instr) : (s.accepted i).attempts = 0 := rfl
@[simp] theorem State.accepted_xferData (s : State) (i : Instr) :
    (s.accepted i).xferData = s.xferData := rfl
@[simp] theorem State.accepted_rlen (s : State) (i : Instr) : (s.accepted i).rlen = s.rlen := rfl
@[simp] theorem State.accepted_xferT (s : State) (i : Instr) : (s.accepted i).xferT = s.xferT := rfl
@[simp] theorem State.accepted_link (s : State) (i : Instr) : (s.accepted i).link = s.link := rfl
@[simp] theorem State.accepted_dout (s : State) (i : Instr) : (s.accepted i).dout = s.dout := rfl
@[simp] theorem State.accepted_dir (s : State) (i : Instr) : (s.accepted i).dir = s.dir := rfl
@[simp] theorem State.accepted_attn (s : State) (i : Instr) : (s.accepted i).attn = s.attn := rfl
@[simp] theorem State.accepted_ack (s : State) (i : Instr) : (s.accepted i).ack = s.ack := rfl
@[simp] theorem State.accepted_monT (s : State) (i : Instr) : (s.accepted i).monT = s.monT := rfl
@[simp] theorem State.accepted_ctlT (s : State) (i : Instr) : (s.accepted i).ctlT = s.ctlT := rfl
@[simp] theorem State.accepted_seq (s : State) (i : Instr) : (s.accepted i).seq = s.seq := rfl
@[simp] theorem State.accepted_tmr (s : State) (i : Instr) : (s.accepted i).tmr = s.tmr := rfl
@[simp] theorem State.accepted_la (s : State) (i : Instr) : (s.accepted i).la = s.la := rfl
@[simp] theorem State.accepted_ll (s : State) (i : Instr) : (s.accepted i).ll = s.ll := rfl
@[simp] theorem State.accepted_q (s : State) (i : Instr) : (s.accepted i).q = s.q := rfl
@[simp] theorem State.accepted_tof (s : State) (i : Instr) : (s.accepted i).tof = s.tof := rfl
@[simp] theorem State.accepted_trace (s : State) (i : Instr) : (s.accepted i).trace = s.trace := rfl
@[simp] theorem State.accepted_refused (s : State) (i : Instr) :
    (s.accepted i).refused = s.refused := rfl
@[simp] theorem State.accepted_build (s : State) (i : Instr) : (s.accepted i).build = s.build := rfl
@[simp] theorem State.accepted_agenda (s : State) (i : Instr) :
    (s.accepted i).agenda = s.agenda := rfl
@[simp] theorem State.accepted_strobes (s : State) (i : Instr) :
    (s.accepted i).strobes = s.strobes := rfl
@[simp] theorem State.accepted_dins (s : State) (i : Instr) : (s.accepted i).dins = s.dins := rfl
@[simp] theorem State.accepted_draws (s : State) (i : Instr) : (s.accepted i).draws = s.draws := rfl
@[simp] theorem State.accepted_reads (s : State) (i : Instr) : (s.accepted i).reads = s.reads := rfl
@[simp] theorem State.accepted_ceil (s : State) (i : Instr) : (s.accepted i).ceil = s.ceil := rfl

/-! ### `State.driveByte` -/

@[simp] theorem State.driveByte_msgAddr (s : State) (b : Byte) :
    (s.driveByte b).msgAddr = s.msgAddr := rfl
@[simp] theorem State.driveByte_msgDir (s : State) (b : Byte) :
    (s.driveByte b).msgDir = s.msgDir := rfl
@[simp] theorem State.driveByte_msgLen (s : State) (b : Byte) :
    (s.driveByte b).msgLen = s.msgLen := rfl
@[simp] theorem State.driveByte_msgBuf (s : State) (b : Byte) :
    (s.driveByte b).msgBuf = s.msgBuf := rfl
@[simp] theorem State.driveByte_cmd (s : State) (b : Byte) : (s.driveByte b).cmd = s.cmd := rfl
@[simp] theorem State.driveByte_cmdArg (s : State) (b : Byte) :
    (s.driveByte b).cmdArg = s.cmdArg := rfl
@[simp] theorem State.driveByte_status (s : State) (b : Byte) :
    (s.driveByte b).status = s.status := rfl
@[simp] theorem State.driveByte_attempts (s : State) (b : Byte) :
    (s.driveByte b).attempts = s.attempts := rfl
@[simp] theorem State.driveByte_xferData (s : State) (b : Byte) :
    (s.driveByte b).xferData = s.xferData := rfl
@[simp] theorem State.driveByte_rlen (s : State) (b : Byte) : (s.driveByte b).rlen = s.rlen := rfl
@[simp] theorem State.driveByte_xferT (s : State) (b : Byte) :
    (s.driveByte b).xferT = s.xferT := rfl
@[simp] theorem State.driveByte_link (s : State) (b : Byte) : (s.driveByte b).link = s.link := rfl
@[simp] theorem State.driveByte_dout (s : State) (b : Byte) : (s.driveByte b).dout = b := rfl
@[simp] theorem State.driveByte_dir (s : State) (b : Byte) : (s.driveByte b).dir = s.dir := rfl
@[simp] theorem State.driveByte_attn (s : State) (b : Byte) : (s.driveByte b).attn = s.attn := rfl
@[simp] theorem State.driveByte_ack (s : State) (b : Byte) : (s.driveByte b).ack = s.ack := rfl
@[simp] theorem State.driveByte_monT (s : State) (b : Byte) : (s.driveByte b).monT = s.monT := rfl
@[simp] theorem State.driveByte_ctlT (s : State) (b : Byte) : (s.driveByte b).ctlT = s.ctlT := rfl
@[simp] theorem State.driveByte_seq (s : State) (b : Byte) : (s.driveByte b).seq = s.seq := rfl
@[simp] theorem State.driveByte_tmr (s : State) (b : Byte) : (s.driveByte b).tmr = s.tmr := rfl
@[simp] theorem State.driveByte_la (s : State) (b : Byte) : (s.driveByte b).la = s.la := rfl
@[simp] theorem State.driveByte_ll (s : State) (b : Byte) : (s.driveByte b).ll = s.ll := rfl
@[simp] theorem State.driveByte_q (s : State) (b : Byte) : (s.driveByte b).q = s.q := rfl
@[simp] theorem State.driveByte_tof (s : State) (b : Byte) : (s.driveByte b).tof = s.tof := rfl
@[simp] theorem State.driveByte_trace (s : State) (b : Byte) :
    (s.driveByte b).trace = s.trace ++ [.drive b] := rfl
@[simp] theorem State.driveByte_refused (s : State) (b : Byte) :
    (s.driveByte b).refused = s.refused := rfl
@[simp] theorem State.driveByte_build (s : State) (b : Byte) :
    (s.driveByte b).build = s.build := rfl
@[simp] theorem State.driveByte_agenda (s : State) (b : Byte) :
    (s.driveByte b).agenda = s.agenda := rfl
@[simp] theorem State.driveByte_strobes (s : State) (b : Byte) :
    (s.driveByte b).strobes = s.strobes := rfl
@[simp] theorem State.driveByte_dins (s : State) (b : Byte) : (s.driveByte b).dins = s.dins := rfl
@[simp] theorem State.driveByte_draws (s : State) (b : Byte) :
    (s.driveByte b).draws = s.draws := rfl
@[simp] theorem State.driveByte_reads (s : State) (b : Byte) :
    (s.driveByte b).reads = s.reads := rfl
@[simp] theorem State.driveByte_ceil (s : State) (b : Byte) : (s.driveByte b).ceil = s.ceil := rfl

/-! ### `State.markTimeout` -/

@[simp] theorem State.markTimeout_msgAddr (s : State) : (s.markTimeout).msgAddr = s.msgAddr := rfl
@[simp] theorem State.markTimeout_msgDir (s : State) : (s.markTimeout).msgDir = s.msgDir := rfl
@[simp] theorem State.markTimeout_msgLen (s : State) : (s.markTimeout).msgLen = s.msgLen := rfl
@[simp] theorem State.markTimeout_msgBuf (s : State) : (s.markTimeout).msgBuf = s.msgBuf := rfl
@[simp] theorem State.markTimeout_cmd (s : State) : (s.markTimeout).cmd = s.cmd := rfl
@[simp] theorem State.markTimeout_cmdArg (s : State) : (s.markTimeout).cmdArg = s.cmdArg := rfl
@[simp] theorem State.markTimeout_status (s : State) :
    (s.markTimeout).status = s.status.markTimeout := rfl
@[simp] theorem State.markTimeout_attempts (s : State) :
    (s.markTimeout).attempts = s.attempts := rfl
@[simp] theorem State.markTimeout_xferData (s : State) :
    (s.markTimeout).xferData = s.xferData := rfl
@[simp] theorem State.markTimeout_rlen (s : State) : (s.markTimeout).rlen = s.rlen := rfl
@[simp] theorem State.markTimeout_xferT (s : State) : (s.markTimeout).xferT = s.xferT := rfl
@[simp] theorem State.markTimeout_link (s : State) : (s.markTimeout).link = s.link := rfl
@[simp] theorem State.markTimeout_dout (s : State) : (s.markTimeout).dout = s.dout := rfl
@[simp] theorem State.markTimeout_dir (s : State) : (s.markTimeout).dir = s.dir := rfl
@[simp] theorem State.markTimeout_attn (s : State) : (s.markTimeout).attn = s.attn := rfl
@[simp] theorem State.markTimeout_ack (s : State) : (s.markTimeout).ack = s.ack := rfl
@[simp] theorem State.markTimeout_monT (s : State) : (s.markTimeout).monT = s.monT := rfl
@[simp] theorem State.markTimeout_ctlT (s : State) : (s.markTimeout).ctlT = s.ctlT := rfl
@[simp] theorem State.markTimeout_seq (s : State) : (s.markTimeout).seq = s.seq := rfl
@[simp] theorem State.markTimeout_tmr (s : State) : (s.markTimeout).tmr = s.tmr := rfl
@[simp] theorem State.markTimeout_la (s : State) : (s.markTimeout).la = s.la := rfl
@[simp] theorem State.markTimeout_ll (s : State) : (s.markTimeout).ll = s.ll := rfl
@[simp] theorem State.markTimeout_q (s : State) : (s.markTimeout).q = s.q := rfl
@[simp] theorem State.markTimeout_tof (s : State) : (s.markTimeout).tof = s.tof := rfl
@[simp] theorem State.markTimeout_trace (s : State) : (s.markTimeout).trace = s.trace := rfl
@[simp] theorem State.markTimeout_refused (s : State) : (s.markTimeout).refused = s.refused := rfl
@[simp] theorem State.markTimeout_build (s : State) : (s.markTimeout).build = s.build := rfl
@[simp] theorem State.markTimeout_agenda (s : State) : (s.markTimeout).agenda = s.agenda := rfl
@[simp] theorem State.markTimeout_strobes (s : State) : (s.markTimeout).strobes = s.strobes := rfl
@[simp] theorem State.markTimeout_dins (s : State) : (s.markTimeout).dins = s.dins := rfl
@[simp] theorem State.markTimeout_draws (s : State) : (s.markTimeout).draws = s.draws := rfl
@[simp] theorem State.markTimeout_reads (s : State) : (s.markTimeout).reads = s.reads := rfl
@[simp] theorem State.markTimeout_ceil (s : State) : (s.markTimeout).ceil = s.ceil := rfl

/-! ### `State.countDown` -/

@[simp] theorem State.countDown_msgAddr (s : State) : (s.countDown).msgAddr = s.msgAddr := rfl
@[simp] theorem State.countDown_msgDir (s : State) : (s.countDown).msgDir = s.msgDir := rfl
@[simp] theorem State.countDown_msgLen (s : State) : (s.countDown).msgLen = s.msgLen := rfl
@[simp] theorem State.countDown_msgBuf (s : State) : (s.countDown).msgBuf = s.msgBuf := rfl
@[simp] theorem State.countDown_cmd (s : State) : (s.countDown).cmd = s.cmd := rfl
@[simp] theorem State.countDown_cmdArg (s : State) : (s.countDown).cmdArg = s.cmdArg := rfl
@[simp] theorem State.countDown_status (s : State) : (s.countDown).status = s.status := rfl
@[simp] theorem State.countDown_attempts (s : State) : (s.countDown).attempts = s.attempts := rfl
@[simp] theorem State.countDown_xferData (s : State) : (s.countDown).xferData = s.xferData := rfl
@[simp] theorem State.countDown_rlen (s : State) : (s.countDown).rlen = s.rlen := rfl
@[simp] theorem State.countDown_xferT (s : State) : (s.countDown).xferT = s.xferT := rfl
@[simp] theorem State.countDown_link (s : State) : (s.countDown).link = s.link := rfl
@[simp] theorem State.countDown_dout (s : State) : (s.countDown).dout = s.dout := rfl
@[simp] theorem State.countDown_dir (s : State) : (s.countDown).dir = s.dir := rfl
@[simp] theorem State.countDown_attn (s : State) : (s.countDown).attn = s.attn := rfl
@[simp] theorem State.countDown_ack (s : State) : (s.countDown).ack = s.ack := rfl
@[simp] theorem State.countDown_monT (s : State) : (s.countDown).monT = s.monT := rfl
@[simp] theorem State.countDown_ctlT (s : State) : (s.countDown).ctlT = s.ctlT := rfl
@[simp] theorem State.countDown_seq (s : State) : (s.countDown).seq = s.seq := rfl
@[simp] theorem State.countDown_tmr (s : State) : (s.countDown).tmr = s.tmr - 1 := rfl
@[simp] theorem State.countDown_la (s : State) : (s.countDown).la = s.la := rfl
@[simp] theorem State.countDown_ll (s : State) : (s.countDown).ll = s.ll := rfl
@[simp] theorem State.countDown_q (s : State) : (s.countDown).q = s.q := rfl
@[simp] theorem State.countDown_tof (s : State) : (s.countDown).tof = s.tof := rfl
@[simp] theorem State.countDown_trace (s : State) : (s.countDown).trace = s.trace := rfl
@[simp] theorem State.countDown_refused (s : State) : (s.countDown).refused = s.refused := rfl
@[simp] theorem State.countDown_build (s : State) : (s.countDown).build = s.build := rfl
@[simp] theorem State.countDown_agenda (s : State) : (s.countDown).agenda = s.agenda := rfl
@[simp] theorem State.countDown_strobes (s : State) : (s.countDown).strobes = s.strobes := rfl
@[simp] theorem State.countDown_dins (s : State) : (s.countDown).dins = s.dins := rfl
@[simp] theorem State.countDown_draws (s : State) : (s.countDown).draws = s.draws := rfl
@[simp] theorem State.countDown_reads (s : State) : (s.countDown).reads = s.reads := rfl
@[simp] theorem State.countDown_ceil (s : State) : (s.countDown).ceil = s.ceil := rfl

/-! ### `State.recordXfer` -/

@[simp] theorem State.recordXfer_msgAddr (s : State) (v : Option Byte) :
    (s.recordXfer v).msgAddr = s.msgAddr := rfl
@[simp] theorem State.recordXfer_msgDir (s : State) (v : Option Byte) :
    (s.recordXfer v).msgDir = s.msgDir := rfl
@[simp] theorem State.recordXfer_msgLen (s : State) (v : Option Byte) :
    (s.recordXfer v).msgLen = s.msgLen := rfl
@[simp] theorem State.recordXfer_msgBuf (s : State) (v : Option Byte) :
    (s.recordXfer v).msgBuf = s.msgBuf := rfl
@[simp] theorem State.recordXfer_cmd (s : State) (v : Option Byte) :
    (s.recordXfer v).cmd = s.cmd := rfl
@[simp] theorem State.recordXfer_cmdArg (s : State) (v : Option Byte) :
    (s.recordXfer v).cmdArg = s.cmdArg := rfl
@[simp] theorem State.recordXfer_status (s : State) (v : Option Byte) :
    (s.recordXfer v).status = s.status := rfl
@[simp] theorem State.recordXfer_attempts (s : State) (v : Option Byte) :
    (s.recordXfer v).attempts = s.attempts := rfl
@[simp] theorem State.recordXfer_xferData (s : State) (v : Option Byte) :
    (s.recordXfer v).xferData = v.getD s.xferData := rfl
@[simp] theorem State.recordXfer_rlen (s : State) (v : Option Byte) :
    (s.recordXfer v).rlen = s.rlen := rfl
@[simp] theorem State.recordXfer_xferT (s : State) (v : Option Byte) :
    (s.recordXfer v).xferT = s.tmr := rfl
@[simp] theorem State.recordXfer_link (s : State) (v : Option Byte) :
    (s.recordXfer v).link = s.link := rfl
@[simp] theorem State.recordXfer_dout (s : State) (v : Option Byte) :
    (s.recordXfer v).dout = s.dout := rfl
@[simp] theorem State.recordXfer_dir (s : State) (v : Option Byte) :
    (s.recordXfer v).dir = s.dir := rfl
@[simp] theorem State.recordXfer_attn (s : State) (v : Option Byte) :
    (s.recordXfer v).attn = s.attn := rfl
@[simp] theorem State.recordXfer_ack (s : State) (v : Option Byte) :
    (s.recordXfer v).ack = s.ack := rfl
@[simp] theorem State.recordXfer_monT (s : State) (v : Option Byte) :
    (s.recordXfer v).monT = s.monT := rfl
@[simp] theorem State.recordXfer_ctlT (s : State) (v : Option Byte) :
    (s.recordXfer v).ctlT = s.ctlT := rfl
@[simp] theorem State.recordXfer_seq (s : State) (v : Option Byte) :
    (s.recordXfer v).seq = s.seq := rfl
@[simp] theorem State.recordXfer_tmr (s : State) (v : Option Byte) :
    (s.recordXfer v).tmr = s.tmr := rfl
@[simp] theorem State.recordXfer_la (s : State) (v : Option Byte) :
    (s.recordXfer v).la = s.la := rfl
@[simp] theorem State.recordXfer_ll (s : State) (v : Option Byte) :
    (s.recordXfer v).ll = s.ll := rfl
@[simp] theorem State.recordXfer_q (s : State) (v : Option Byte) : (s.recordXfer v).q = s.q := rfl
@[simp] theorem State.recordXfer_tof (s : State) (v : Option Byte) :
    (s.recordXfer v).tof = s.tof := rfl
@[simp] theorem State.recordXfer_trace (s : State) (v : Option Byte) :
    (s.recordXfer v).trace = s.trace := rfl
@[simp] theorem State.recordXfer_refused (s : State) (v : Option Byte) :
    (s.recordXfer v).refused = s.refused := rfl
@[simp] theorem State.recordXfer_build (s : State) (v : Option Byte) :
    (s.recordXfer v).build = s.build := rfl
@[simp] theorem State.recordXfer_agenda (s : State) (v : Option Byte) :
    (s.recordXfer v).agenda = s.agenda := rfl
@[simp] theorem State.recordXfer_strobes (s : State) (v : Option Byte) :
    (s.recordXfer v).strobes = s.strobes := rfl
@[simp] theorem State.recordXfer_dins (s : State) (v : Option Byte) :
    (s.recordXfer v).dins = s.dins := rfl
@[simp] theorem State.recordXfer_draws (s : State) (v : Option Byte) :
    (s.recordXfer v).draws = s.draws := rfl
@[simp] theorem State.recordXfer_reads (s : State) (v : Option Byte) :
    (s.recordXfer v).reads = s.reads := rfl
@[simp] theorem State.recordXfer_ceil (s : State) (v : Option Byte) :
    (s.recordXfer v).ceil = s.ceil := rfl

/-! ### `State.recordControl` -/

@[simp] theorem State.recordControl_msgAddr (s : State) (ph : CtlPhase) :
    (s.recordControl ph).msgAddr = s.msgAddr := rfl
@[simp] theorem State.recordControl_msgDir (s : State) (ph : CtlPhase) :
    (s.recordControl ph).msgDir = s.msgDir := rfl
@[simp] theorem State.recordControl_msgLen (s : State) (ph : CtlPhase) :
    (s.recordControl ph).msgLen = s.msgLen := rfl
@[simp] theorem State.recordControl_msgBuf (s : State) (ph : CtlPhase) :
    (s.recordControl ph).msgBuf = s.msgBuf := rfl
@[simp] theorem State.recordControl_cmd (s : State) (ph : CtlPhase) :
    (s.recordControl ph).cmd = s.cmd := rfl
@[simp] theorem State.recordControl_cmdArg (s : State) (ph : CtlPhase) :
    (s.recordControl ph).cmdArg = s.cmdArg := rfl
@[simp] theorem State.recordControl_status (s : State) (ph : CtlPhase) :
    (s.recordControl ph).status = s.status := rfl
@[simp] theorem State.recordControl_attempts (s : State) (ph : CtlPhase) :
    (s.recordControl ph).attempts = s.attempts := rfl
@[simp] theorem State.recordControl_xferData (s : State) (ph : CtlPhase) :
    (s.recordControl ph).xferData = s.xferData := rfl
@[simp] theorem State.recordControl_rlen (s : State) (ph : CtlPhase) :
    (s.recordControl ph).rlen = s.rlen := rfl
@[simp] theorem State.recordControl_xferT (s : State) (ph : CtlPhase) :
    (s.recordControl ph).xferT = s.xferT := rfl
@[simp] theorem State.recordControl_link (s : State) (ph : CtlPhase) :
    (s.recordControl ph).link = s.link := rfl
@[simp] theorem State.recordControl_dout (s : State) (ph : CtlPhase) :
    (s.recordControl ph).dout = s.dout := rfl
@[simp] theorem State.recordControl_dir (s : State) (ph : CtlPhase) :
    (s.recordControl ph).dir = s.dir := rfl
@[simp] theorem State.recordControl_attn (s : State) (ph : CtlPhase) :
    (s.recordControl ph).attn = s.attn := rfl
@[simp] theorem State.recordControl_ack (s : State) (ph : CtlPhase) :
    (s.recordControl ph).ack = s.ack := rfl
@[simp] theorem State.recordControl_monT (s : State) (ph : CtlPhase) :
    (s.recordControl ph).monT = s.monT := rfl
@[simp] theorem State.recordControl_ctlT (s : State) (ph : CtlPhase) :
    (s.recordControl ph).ctlT = s.ctlT.set ph.slot s.tmr := rfl
@[simp] theorem State.recordControl_seq (s : State) (ph : CtlPhase) :
    (s.recordControl ph).seq = s.seq := rfl
@[simp] theorem State.recordControl_tmr (s : State) (ph : CtlPhase) :
    (s.recordControl ph).tmr = s.tmr := rfl
@[simp] theorem State.recordControl_la (s : State) (ph : CtlPhase) :
    (s.recordControl ph).la = s.la := rfl
@[simp] theorem State.recordControl_ll (s : State) (ph : CtlPhase) :
    (s.recordControl ph).ll = s.ll := rfl
@[simp] theorem State.recordControl_q (s : State) (ph : CtlPhase) :
    (s.recordControl ph).q = s.q := rfl
@[simp] theorem State.recordControl_tof (s : State) (ph : CtlPhase) :
    (s.recordControl ph).tof = s.tof := rfl
@[simp] theorem State.recordControl_trace (s : State) (ph : CtlPhase) :
    (s.recordControl ph).trace = s.trace := rfl
@[simp] theorem State.recordControl_refused (s : State) (ph : CtlPhase) :
    (s.recordControl ph).refused = s.refused := rfl
@[simp] theorem State.recordControl_build (s : State) (ph : CtlPhase) :
    (s.recordControl ph).build = s.build := rfl
@[simp] theorem State.recordControl_agenda (s : State) (ph : CtlPhase) :
    (s.recordControl ph).agenda = s.agenda := rfl
@[simp] theorem State.recordControl_strobes (s : State) (ph : CtlPhase) :
    (s.recordControl ph).strobes = s.strobes := rfl
@[simp] theorem State.recordControl_dins (s : State) (ph : CtlPhase) :
    (s.recordControl ph).dins = s.dins := rfl
@[simp] theorem State.recordControl_draws (s : State) (ph : CtlPhase) :
    (s.recordControl ph).draws = s.draws := rfl
@[simp] theorem State.recordControl_reads (s : State) (ph : CtlPhase) :
    (s.recordControl ph).reads = s.reads := rfl
@[simp] theorem State.recordControl_ceil (s : State) (ph : CtlPhase) :
    (s.recordControl ph).ceil = s.ceil := rfl

/-! ### `State.recordMonitor` -/

@[simp] theorem State.recordMonitor_msgAddr (s : State) (ph : MonPhase) :
    (s.recordMonitor ph).msgAddr = s.msgAddr := rfl
@[simp] theorem State.recordMonitor_msgDir (s : State) (ph : MonPhase) :
    (s.recordMonitor ph).msgDir = s.msgDir := rfl
@[simp] theorem State.recordMonitor_msgLen (s : State) (ph : MonPhase) :
    (s.recordMonitor ph).msgLen = s.msgLen := rfl
@[simp] theorem State.recordMonitor_msgBuf (s : State) (ph : MonPhase) :
    (s.recordMonitor ph).msgBuf = s.msgBuf := rfl
@[simp] theorem State.recordMonitor_cmd (s : State) (ph : MonPhase) :
    (s.recordMonitor ph).cmd = s.cmd := rfl
@[simp] theorem State.recordMonitor_cmdArg (s : State) (ph : MonPhase) :
    (s.recordMonitor ph).cmdArg = s.cmdArg := rfl
@[simp] theorem State.recordMonitor_status (s : State) (ph : MonPhase) :
    (s.recordMonitor ph).status = s.status := rfl
@[simp] theorem State.recordMonitor_attempts (s : State) (ph : MonPhase) :
    (s.recordMonitor ph).attempts = s.attempts := rfl
@[simp] theorem State.recordMonitor_xferData (s : State) (ph : MonPhase) :
    (s.recordMonitor ph).xferData = s.xferData := rfl
@[simp] theorem State.recordMonitor_rlen (s : State) (ph : MonPhase) :
    (s.recordMonitor ph).rlen = s.rlen := rfl
@[simp] theorem State.recordMonitor_xferT (s : State) (ph : MonPhase) :
    (s.recordMonitor ph).xferT = s.xferT := rfl
@[simp] theorem State.recordMonitor_link (s : State) (ph : MonPhase) :
    (s.recordMonitor ph).link = s.link := rfl
@[simp] theorem State.recordMonitor_dout (s : State) (ph : MonPhase) :
    (s.recordMonitor ph).dout = s.dout := rfl
@[simp] theorem State.recordMonitor_dir (s : State) (ph : MonPhase) :
    (s.recordMonitor ph).dir = s.dir := rfl
@[simp] theorem State.recordMonitor_attn (s : State) (ph : MonPhase) :
    (s.recordMonitor ph).attn = s.attn := rfl
@[simp] theorem State.recordMonitor_ack (s : State) (ph : MonPhase) :
    (s.recordMonitor ph).ack = s.ack := rfl
@[simp] theorem State.recordMonitor_monT (s : State) (ph : MonPhase) :
    (s.recordMonitor ph).monT = s.monT.set ph.slot s.tmr := rfl
@[simp] theorem State.recordMonitor_ctlT (s : State) (ph : MonPhase) :
    (s.recordMonitor ph).ctlT = s.ctlT := rfl
@[simp] theorem State.recordMonitor_seq (s : State) (ph : MonPhase) :
    (s.recordMonitor ph).seq = s.seq := rfl
@[simp] theorem State.recordMonitor_tmr (s : State) (ph : MonPhase) :
    (s.recordMonitor ph).tmr = s.tmr := rfl
@[simp] theorem State.recordMonitor_la (s : State) (ph : MonPhase) :
    (s.recordMonitor ph).la = s.la := rfl
@[simp] theorem State.recordMonitor_ll (s : State) (ph : MonPhase) :
    (s.recordMonitor ph).ll = s.ll := rfl
@[simp] theorem State.recordMonitor_q (s : State) (ph : MonPhase) :
    (s.recordMonitor ph).q = s.q := rfl
@[simp] theorem State.recordMonitor_tof (s : State) (ph : MonPhase) :
    (s.recordMonitor ph).tof = s.tof := rfl
@[simp] theorem State.recordMonitor_trace (s : State) (ph : MonPhase) :
    (s.recordMonitor ph).trace = s.trace := rfl
@[simp] theorem State.recordMonitor_refused (s : State) (ph : MonPhase) :
    (s.recordMonitor ph).refused = s.refused := rfl
@[simp] theorem State.recordMonitor_build (s : State) (ph : MonPhase) :
    (s.recordMonitor ph).build = s.build := rfl
@[simp] theorem State.recordMonitor_agenda (s : State) (ph : MonPhase) :
    (s.recordMonitor ph).agenda = s.agenda := rfl
@[simp] theorem State.recordMonitor_strobes (s : State) (ph : MonPhase) :
    (s.recordMonitor ph).strobes = s.strobes := rfl
@[simp] theorem State.recordMonitor_dins (s : State) (ph : MonPhase) :
    (s.recordMonitor ph).dins = s.dins := rfl
@[simp] theorem State.recordMonitor_draws (s : State) (ph : MonPhase) :
    (s.recordMonitor ph).draws = s.draws := rfl
@[simp] theorem State.recordMonitor_reads (s : State) (ph : MonPhase) :
    (s.recordMonitor ph).reads = s.reads := rfl
@[simp] theorem State.recordMonitor_ceil (s : State) (ph : MonPhase) :
    (s.recordMonitor ph).ceil = s.ceil := rfl

/-! ### `State.markTof` -/

@[simp] theorem State.markTof_msgAddr (s : State) : (s.markTof).msgAddr = s.msgAddr := rfl
@[simp] theorem State.markTof_msgDir (s : State) : (s.markTof).msgDir = s.msgDir := rfl
@[simp] theorem State.markTof_msgLen (s : State) : (s.markTof).msgLen = s.msgLen := rfl
@[simp] theorem State.markTof_msgBuf (s : State) : (s.markTof).msgBuf = s.msgBuf := rfl
@[simp] theorem State.markTof_cmd (s : State) : (s.markTof).cmd = s.cmd := rfl
@[simp] theorem State.markTof_cmdArg (s : State) : (s.markTof).cmdArg = s.cmdArg := rfl
@[simp] theorem State.markTof_status (s : State) : (s.markTof).status = s.status := rfl
@[simp] theorem State.markTof_attempts (s : State) : (s.markTof).attempts = s.attempts := rfl
@[simp] theorem State.markTof_xferData (s : State) : (s.markTof).xferData = s.xferData := rfl
@[simp] theorem State.markTof_rlen (s : State) : (s.markTof).rlen = s.rlen := rfl
@[simp] theorem State.markTof_xferT (s : State) : (s.markTof).xferT = s.xferT := rfl
@[simp] theorem State.markTof_link (s : State) : (s.markTof).link = s.link := rfl
@[simp] theorem State.markTof_dout (s : State) : (s.markTof).dout = s.dout := rfl
@[simp] theorem State.markTof_dir (s : State) : (s.markTof).dir = s.dir := rfl
@[simp] theorem State.markTof_attn (s : State) : (s.markTof).attn = s.attn := rfl
@[simp] theorem State.markTof_ack (s : State) : (s.markTof).ack = s.ack := rfl
@[simp] theorem State.markTof_monT (s : State) : (s.markTof).monT = s.monT := rfl
@[simp] theorem State.markTof_ctlT (s : State) : (s.markTof).ctlT = s.ctlT := rfl
@[simp] theorem State.markTof_seq (s : State) : (s.markTof).seq = s.seq := rfl
@[simp] theorem State.markTof_tmr (s : State) : (s.markTof).tmr = s.tmr := rfl
@[simp] theorem State.markTof_la (s : State) : (s.markTof).la = s.la := rfl
@[simp] theorem State.markTof_ll (s : State) : (s.markTof).ll = s.ll := rfl
@[simp] theorem State.markTof_q (s : State) : (s.markTof).q = s.q := rfl
@[simp] theorem State.markTof_tof (s : State) : (s.markTof).tof = true := rfl
@[simp] theorem State.markTof_trace (s : State) : (s.markTof).trace = s.trace := rfl
@[simp] theorem State.markTof_refused (s : State) : (s.markTof).refused = s.refused := rfl
@[simp] theorem State.markTof_build (s : State) : (s.markTof).build = s.build := rfl
@[simp] theorem State.markTof_agenda (s : State) : (s.markTof).agenda = s.agenda := rfl
@[simp] theorem State.markTof_strobes (s : State) : (s.markTof).strobes = s.strobes := rfl
@[simp] theorem State.markTof_dins (s : State) : (s.markTof).dins = s.dins := rfl
@[simp] theorem State.markTof_draws (s : State) : (s.markTof).draws = s.draws := rfl
@[simp] theorem State.markTof_reads (s : State) : (s.markTof).reads = s.reads := rfl
@[simp] theorem State.markTof_ceil (s : State) : (s.markTof).ceil = s.ceil := rfl

/-! ### `State.storeLength` -/

@[simp] theorem State.storeLength_msgAddr (s : State) (v : Option Byte) :
    (s.storeLength v).msgAddr = s.msgAddr := rfl
@[simp] theorem State.storeLength_msgDir (s : State) (v : Option Byte) :
    (s.storeLength v).msgDir = s.msgDir := rfl
@[simp] theorem State.storeLength_msgLen (s : State) (v : Option Byte) :
    (s.storeLength v).msgLen = s.msgLen := rfl
@[simp] theorem State.storeLength_msgBuf (s : State) (v : Option Byte) :
    (s.storeLength v).msgBuf = s.msgBuf := rfl
@[simp] theorem State.storeLength_cmd (s : State) (v : Option Byte) :
    (s.storeLength v).cmd = s.cmd := rfl
@[simp] theorem State.storeLength_cmdArg (s : State) (v : Option Byte) :
    (s.storeLength v).cmdArg = s.cmdArg := rfl
@[simp] theorem State.storeLength_status (s : State) (v : Option Byte) :
    (s.storeLength v).status = s.status := rfl
@[simp] theorem State.storeLength_attempts (s : State) (v : Option Byte) :
    (s.storeLength v).attempts = s.attempts := rfl
@[simp] theorem State.storeLength_xferData (s : State) (v : Option Byte) :
    (s.storeLength v).xferData = s.xferData := rfl
@[simp] theorem State.storeLength_rlen (s : State) (v : Option Byte) :
    (s.storeLength v).rlen = v.getD s.rlen := rfl
@[simp] theorem State.storeLength_xferT (s : State) (v : Option Byte) :
    (s.storeLength v).xferT = s.xferT := rfl
@[simp] theorem State.storeLength_link (s : State) (v : Option Byte) :
    (s.storeLength v).link = s.link := rfl
@[simp] theorem State.storeLength_dout (s : State) (v : Option Byte) :
    (s.storeLength v).dout = s.dout := rfl
@[simp] theorem State.storeLength_dir (s : State) (v : Option Byte) :
    (s.storeLength v).dir = s.dir := rfl
@[simp] theorem State.storeLength_attn (s : State) (v : Option Byte) :
    (s.storeLength v).attn = s.attn := rfl
@[simp] theorem State.storeLength_ack (s : State) (v : Option Byte) :
    (s.storeLength v).ack = s.ack := rfl
@[simp] theorem State.storeLength_monT (s : State) (v : Option Byte) :
    (s.storeLength v).monT = s.monT := rfl
@[simp] theorem State.storeLength_ctlT (s : State) (v : Option Byte) :
    (s.storeLength v).ctlT = s.ctlT := rfl
@[simp] theorem State.storeLength_seq (s : State) (v : Option Byte) :
    (s.storeLength v).seq = s.seq := rfl
@[simp] theorem State.storeLength_tmr (s : State) (v : Option Byte) :
    (s.storeLength v).tmr = s.tmr := rfl
@[simp] theorem State.storeLength_la (s : State) (v : Option Byte) :
    (s.storeLength v).la = s.la := rfl
@[simp] theorem State.storeLength_ll (s : State) (v : Option Byte) :
    (s.storeLength v).ll = s.ll := rfl
@[simp] theorem State.storeLength_q (s : State) (v : Option Byte) : (s.storeLength v).q = s.q := rfl
@[simp] theorem State.storeLength_tof (s : State) (v : Option Byte) :
    (s.storeLength v).tof = s.tof := rfl
@[simp] theorem State.storeLength_trace (s : State) (v : Option Byte) :
    (s.storeLength v).trace = s.trace := rfl
@[simp] theorem State.storeLength_refused (s : State) (v : Option Byte) :
    (s.storeLength v).refused = s.refused := rfl
@[simp] theorem State.storeLength_build (s : State) (v : Option Byte) :
    (s.storeLength v).build = s.build := rfl
@[simp] theorem State.storeLength_agenda (s : State) (v : Option Byte) :
    (s.storeLength v).agenda = s.agenda := rfl
@[simp] theorem State.storeLength_strobes (s : State) (v : Option Byte) :
    (s.storeLength v).strobes = s.strobes := rfl
@[simp] theorem State.storeLength_dins (s : State) (v : Option Byte) :
    (s.storeLength v).dins = s.dins := rfl
@[simp] theorem State.storeLength_draws (s : State) (v : Option Byte) :
    (s.storeLength v).draws = s.draws := rfl
@[simp] theorem State.storeLength_reads (s : State) (v : Option Byte) :
    (s.storeLength v).reads = s.reads := rfl
@[simp] theorem State.storeLength_ceil (s : State) (v : Option Byte) :
    (s.storeLength v).ceil = s.ceil := rfl

/-! ### `State.takeLength` -/

@[simp] theorem State.takeLength_msgAddr (s : State) : (s.takeLength).msgAddr = s.msgAddr := rfl
@[simp] theorem State.takeLength_msgDir (s : State) : (s.takeLength).msgDir = s.msgDir := rfl
@[simp] theorem State.takeLength_msgLen (s : State) : (s.takeLength).msgLen = s.rlen := rfl
@[simp] theorem State.takeLength_msgBuf (s : State) : (s.takeLength).msgBuf = s.msgBuf := rfl
@[simp] theorem State.takeLength_cmd (s : State) : (s.takeLength).cmd = s.cmd := rfl
@[simp] theorem State.takeLength_cmdArg (s : State) : (s.takeLength).cmdArg = s.cmdArg := rfl
@[simp] theorem State.takeLength_status (s : State) : (s.takeLength).status = s.status := rfl
@[simp] theorem State.takeLength_attempts (s : State) : (s.takeLength).attempts = s.attempts := rfl
@[simp] theorem State.takeLength_xferData (s : State) : (s.takeLength).xferData = s.xferData := rfl
@[simp] theorem State.takeLength_rlen (s : State) : (s.takeLength).rlen = s.rlen := rfl
@[simp] theorem State.takeLength_xferT (s : State) : (s.takeLength).xferT = s.xferT := rfl
@[simp] theorem State.takeLength_link (s : State) : (s.takeLength).link = s.link := rfl
@[simp] theorem State.takeLength_dout (s : State) : (s.takeLength).dout = s.dout := rfl
@[simp] theorem State.takeLength_dir (s : State) : (s.takeLength).dir = s.dir := rfl
@[simp] theorem State.takeLength_attn (s : State) : (s.takeLength).attn = s.attn := rfl
@[simp] theorem State.takeLength_ack (s : State) : (s.takeLength).ack = s.ack := rfl
@[simp] theorem State.takeLength_monT (s : State) : (s.takeLength).monT = s.monT := rfl
@[simp] theorem State.takeLength_ctlT (s : State) : (s.takeLength).ctlT = s.ctlT := rfl
@[simp] theorem State.takeLength_seq (s : State) : (s.takeLength).seq = s.seq := rfl
@[simp] theorem State.takeLength_tmr (s : State) : (s.takeLength).tmr = s.tmr := rfl
@[simp] theorem State.takeLength_la (s : State) : (s.takeLength).la = s.la := rfl
@[simp] theorem State.takeLength_ll (s : State) : (s.takeLength).ll = s.ll := rfl
@[simp] theorem State.takeLength_q (s : State) : (s.takeLength).q = s.q := rfl
@[simp] theorem State.takeLength_tof (s : State) : (s.takeLength).tof = s.tof := rfl
@[simp] theorem State.takeLength_trace (s : State) : (s.takeLength).trace = s.trace := rfl
@[simp] theorem State.takeLength_refused (s : State) : (s.takeLength).refused = s.refused := rfl
@[simp] theorem State.takeLength_build (s : State) : (s.takeLength).build = s.build := rfl
@[simp] theorem State.takeLength_agenda (s : State) : (s.takeLength).agenda = s.agenda := rfl
@[simp] theorem State.takeLength_strobes (s : State) : (s.takeLength).strobes = s.strobes := rfl
@[simp] theorem State.takeLength_dins (s : State) : (s.takeLength).dins = s.dins := rfl
@[simp] theorem State.takeLength_draws (s : State) : (s.takeLength).draws = s.draws := rfl
@[simp] theorem State.takeLength_reads (s : State) : (s.takeLength).reads = s.reads := rfl
@[simp] theorem State.takeLength_ceil (s : State) : (s.takeLength).ceil = s.ceil := rfl

/-! ### `State.storePayload` -/

@[simp] theorem State.storePayload_msgAddr (s : State) (i : Fin 8) (v : Option Byte) :
    (s.storePayload i v).msgAddr = s.msgAddr := rfl
@[simp] theorem State.storePayload_msgDir (s : State) (i : Fin 8) (v : Option Byte) :
    (s.storePayload i v).msgDir = s.msgDir := rfl
@[simp] theorem State.storePayload_msgLen (s : State) (i : Fin 8) (v : Option Byte) :
    (s.storePayload i v).msgLen = s.msgLen := rfl
@[simp] theorem State.storePayload_msgBuf (s : State) (i : Fin 8) (v : Option Byte) :
    (s.storePayload i v).msgBuf = s.msgBuf.set i (v.getD s.msgBuf[i]) := rfl
@[simp] theorem State.storePayload_cmd (s : State) (i : Fin 8) (v : Option Byte) :
    (s.storePayload i v).cmd = s.cmd := rfl
@[simp] theorem State.storePayload_cmdArg (s : State) (i : Fin 8) (v : Option Byte) :
    (s.storePayload i v).cmdArg = s.cmdArg := rfl
@[simp] theorem State.storePayload_status (s : State) (i : Fin 8) (v : Option Byte) :
    (s.storePayload i v).status = s.status := rfl
@[simp] theorem State.storePayload_attempts (s : State) (i : Fin 8) (v : Option Byte) :
    (s.storePayload i v).attempts = s.attempts := rfl
@[simp] theorem State.storePayload_xferData (s : State) (i : Fin 8) (v : Option Byte) :
    (s.storePayload i v).xferData = s.xferData := rfl
@[simp] theorem State.storePayload_rlen (s : State) (i : Fin 8) (v : Option Byte) :
    (s.storePayload i v).rlen = s.rlen := rfl
@[simp] theorem State.storePayload_xferT (s : State) (i : Fin 8) (v : Option Byte) :
    (s.storePayload i v).xferT = s.xferT := rfl
@[simp] theorem State.storePayload_link (s : State) (i : Fin 8) (v : Option Byte) :
    (s.storePayload i v).link = s.link := rfl
@[simp] theorem State.storePayload_dout (s : State) (i : Fin 8) (v : Option Byte) :
    (s.storePayload i v).dout = s.dout := rfl
@[simp] theorem State.storePayload_dir (s : State) (i : Fin 8) (v : Option Byte) :
    (s.storePayload i v).dir = s.dir := rfl
@[simp] theorem State.storePayload_attn (s : State) (i : Fin 8) (v : Option Byte) :
    (s.storePayload i v).attn = s.attn := rfl
@[simp] theorem State.storePayload_ack (s : State) (i : Fin 8) (v : Option Byte) :
    (s.storePayload i v).ack = s.ack := rfl
@[simp] theorem State.storePayload_monT (s : State) (i : Fin 8) (v : Option Byte) :
    (s.storePayload i v).monT = s.monT := rfl
@[simp] theorem State.storePayload_ctlT (s : State) (i : Fin 8) (v : Option Byte) :
    (s.storePayload i v).ctlT = s.ctlT := rfl
@[simp] theorem State.storePayload_seq (s : State) (i : Fin 8) (v : Option Byte) :
    (s.storePayload i v).seq = s.seq := rfl
@[simp] theorem State.storePayload_tmr (s : State) (i : Fin 8) (v : Option Byte) :
    (s.storePayload i v).tmr = s.tmr := rfl
@[simp] theorem State.storePayload_la (s : State) (i : Fin 8) (v : Option Byte) :
    (s.storePayload i v).la = s.la := rfl
@[simp] theorem State.storePayload_ll (s : State) (i : Fin 8) (v : Option Byte) :
    (s.storePayload i v).ll = s.ll := rfl
@[simp] theorem State.storePayload_q (s : State) (i : Fin 8) (v : Option Byte) :
    (s.storePayload i v).q = s.q := rfl
@[simp] theorem State.storePayload_tof (s : State) (i : Fin 8) (v : Option Byte) :
    (s.storePayload i v).tof = s.tof := rfl
@[simp] theorem State.storePayload_trace (s : State) (i : Fin 8) (v : Option Byte) :
    (s.storePayload i v).trace = s.trace := rfl
@[simp] theorem State.storePayload_refused (s : State) (i : Fin 8) (v : Option Byte) :
    (s.storePayload i v).refused = s.refused := rfl
@[simp] theorem State.storePayload_build (s : State) (i : Fin 8) (v : Option Byte) :
    (s.storePayload i v).build = s.build := rfl
@[simp] theorem State.storePayload_agenda (s : State) (i : Fin 8) (v : Option Byte) :
    (s.storePayload i v).agenda = s.agenda := rfl
@[simp] theorem State.storePayload_strobes (s : State) (i : Fin 8) (v : Option Byte) :
    (s.storePayload i v).strobes = s.strobes := rfl
@[simp] theorem State.storePayload_dins (s : State) (i : Fin 8) (v : Option Byte) :
    (s.storePayload i v).dins = s.dins := rfl
@[simp] theorem State.storePayload_draws (s : State) (i : Fin 8) (v : Option Byte) :
    (s.storePayload i v).draws = s.draws := rfl
@[simp] theorem State.storePayload_reads (s : State) (i : Fin 8) (v : Option Byte) :
    (s.storePayload i v).reads = s.reads := rfl
@[simp] theorem State.storePayload_ceil (s : State) (i : Fin 8) (v : Option Byte) :
    (s.storePayload i v).ceil = s.ceil := rfl

/-! ### `State.suppressMessage` -/

@[simp] theorem State.suppressMessage_msgAddr (s : State) :
    (s.suppressMessage).msgAddr = s.msgAddr := rfl
@[simp] theorem State.suppressMessage_msgDir (s : State) :
    (s.suppressMessage).msgDir = .control := rfl
@[simp] theorem State.suppressMessage_msgLen (s : State) : (s.suppressMessage).msgLen = 0 := rfl
@[simp] theorem State.suppressMessage_msgBuf (s : State) :
    (s.suppressMessage).msgBuf = s.msgBuf := rfl
@[simp] theorem State.suppressMessage_cmd (s : State) : (s.suppressMessage).cmd = s.cmd := rfl
@[simp] theorem State.suppressMessage_cmdArg (s : State) :
    (s.suppressMessage).cmdArg = s.cmdArg := rfl
@[simp] theorem State.suppressMessage_status (s : State) :
    (s.suppressMessage).status = s.status := rfl
@[simp] theorem State.suppressMessage_attempts (s : State) :
    (s.suppressMessage).attempts = s.attempts := rfl
@[simp] theorem State.suppressMessage_xferData (s : State) :
    (s.suppressMessage).xferData = s.xferData := rfl
@[simp] theorem State.suppressMessage_rlen (s : State) : (s.suppressMessage).rlen = s.rlen := rfl
@[simp] theorem State.suppressMessage_xferT (s : State) : (s.suppressMessage).xferT = s.xferT := rfl
@[simp] theorem State.suppressMessage_link (s : State) : (s.suppressMessage).link = s.link := rfl
@[simp] theorem State.suppressMessage_dout (s : State) : (s.suppressMessage).dout = s.dout := rfl
@[simp] theorem State.suppressMessage_dir (s : State) : (s.suppressMessage).dir = s.dir := rfl
@[simp] theorem State.suppressMessage_attn (s : State) : (s.suppressMessage).attn = s.attn := rfl
@[simp] theorem State.suppressMessage_ack (s : State) : (s.suppressMessage).ack = s.ack := rfl
@[simp] theorem State.suppressMessage_monT (s : State) : (s.suppressMessage).monT = s.monT := rfl
@[simp] theorem State.suppressMessage_ctlT (s : State) : (s.suppressMessage).ctlT = s.ctlT := rfl
@[simp] theorem State.suppressMessage_seq (s : State) : (s.suppressMessage).seq = s.seq := rfl
@[simp] theorem State.suppressMessage_tmr (s : State) : (s.suppressMessage).tmr = s.tmr := rfl
@[simp] theorem State.suppressMessage_la (s : State) : (s.suppressMessage).la = s.la := rfl
@[simp] theorem State.suppressMessage_ll (s : State) : (s.suppressMessage).ll = s.ll := rfl
@[simp] theorem State.suppressMessage_q (s : State) : (s.suppressMessage).q = s.q := rfl
@[simp] theorem State.suppressMessage_tof (s : State) : (s.suppressMessage).tof = s.tof := rfl
@[simp] theorem State.suppressMessage_trace (s : State) : (s.suppressMessage).trace = s.trace := rfl
@[simp] theorem State.suppressMessage_refused (s : State) :
    (s.suppressMessage).refused = s.refused := rfl
@[simp] theorem State.suppressMessage_build (s : State) : (s.suppressMessage).build = s.build := rfl
@[simp] theorem State.suppressMessage_agenda (s : State) :
    (s.suppressMessage).agenda = s.agenda := rfl
@[simp] theorem State.suppressMessage_strobes (s : State) :
    (s.suppressMessage).strobes = s.strobes := rfl
@[simp] theorem State.suppressMessage_dins (s : State) : (s.suppressMessage).dins = s.dins := rfl
@[simp] theorem State.suppressMessage_draws (s : State) : (s.suppressMessage).draws = s.draws := rfl
@[simp] theorem State.suppressMessage_reads (s : State) : (s.suppressMessage).reads = s.reads := rfl
@[simp] theorem State.suppressMessage_ceil (s : State) : (s.suppressMessage).ceil = s.ceil := rfl

/-! ### `State.drawTaken` -/

@[simp] theorem State.drawTaken_msgAddr (s : State) : (s.drawTaken).msgAddr = s.msgAddr := rfl
@[simp] theorem State.drawTaken_msgDir (s : State) : (s.drawTaken).msgDir = s.msgDir := rfl
@[simp] theorem State.drawTaken_msgLen (s : State) : (s.drawTaken).msgLen = s.msgLen := rfl
@[simp] theorem State.drawTaken_msgBuf (s : State) : (s.drawTaken).msgBuf = s.msgBuf := rfl
@[simp] theorem State.drawTaken_cmd (s : State) : (s.drawTaken).cmd = s.cmd := rfl
@[simp] theorem State.drawTaken_cmdArg (s : State) : (s.drawTaken).cmdArg = s.cmdArg := rfl
@[simp] theorem State.drawTaken_status (s : State) : (s.drawTaken).status = s.status := rfl
@[simp] theorem State.drawTaken_attempts (s : State) : (s.drawTaken).attempts = s.attempts := rfl
@[simp] theorem State.drawTaken_xferData (s : State) : (s.drawTaken).xferData = s.xferData := rfl
@[simp] theorem State.drawTaken_rlen (s : State) : (s.drawTaken).rlen = s.rlen := rfl
@[simp] theorem State.drawTaken_xferT (s : State) : (s.drawTaken).xferT = s.xferT := rfl
@[simp] theorem State.drawTaken_link (s : State) : (s.drawTaken).link = s.link := rfl
@[simp] theorem State.drawTaken_dout (s : State) : (s.drawTaken).dout = s.dout := rfl
@[simp] theorem State.drawTaken_dir (s : State) : (s.drawTaken).dir = s.dir := rfl
@[simp] theorem State.drawTaken_attn (s : State) : (s.drawTaken).attn = s.attn := rfl
@[simp] theorem State.drawTaken_ack (s : State) : (s.drawTaken).ack = s.ack := rfl
@[simp] theorem State.drawTaken_monT (s : State) : (s.drawTaken).monT = s.monT := rfl
@[simp] theorem State.drawTaken_ctlT (s : State) : (s.drawTaken).ctlT = s.ctlT := rfl
@[simp] theorem State.drawTaken_seq (s : State) : (s.drawTaken).seq = s.seq := rfl
@[simp] theorem State.drawTaken_tmr (s : State) : (s.drawTaken).tmr = s.tmr := rfl
@[simp] theorem State.drawTaken_la (s : State) : (s.drawTaken).la = s.la := rfl
@[simp] theorem State.drawTaken_ll (s : State) : (s.drawTaken).ll = s.ll := rfl
@[simp] theorem State.drawTaken_q (s : State) : (s.drawTaken).q = s.q := rfl
@[simp] theorem State.drawTaken_tof (s : State) : (s.drawTaken).tof = s.tof := rfl
@[simp] theorem State.drawTaken_trace (s : State) : (s.drawTaken).trace = s.trace := rfl
@[simp] theorem State.drawTaken_refused (s : State) : (s.drawTaken).refused = s.refused := rfl
@[simp] theorem State.drawTaken_build (s : State) : (s.drawTaken).build = s.build := rfl
@[simp] theorem State.drawTaken_agenda (s : State) : (s.drawTaken).agenda = s.agenda := rfl
@[simp] theorem State.drawTaken_strobes (s : State) : (s.drawTaken).strobes = s.strobes := rfl
@[simp] theorem State.drawTaken_dins (s : State) : (s.drawTaken).dins = s.dins := rfl
@[simp] theorem State.drawTaken_draws (s : State) : (s.drawTaken).draws = s.draws + 1 := rfl
@[simp] theorem State.drawTaken_reads (s : State) : (s.drawTaken).reads = s.reads := rfl
@[simp] theorem State.drawTaken_ceil (s : State) : (s.drawTaken).ceil = s.ceil := rfl

/-! ### `State.withAgenda` -/

@[simp] theorem State.withAgenda_msgAddr (s : State) (rest : List Move) :
    (s.withAgenda rest).msgAddr = s.msgAddr := rfl
@[simp] theorem State.withAgenda_msgDir (s : State) (rest : List Move) :
    (s.withAgenda rest).msgDir = s.msgDir := rfl
@[simp] theorem State.withAgenda_msgLen (s : State) (rest : List Move) :
    (s.withAgenda rest).msgLen = s.msgLen := rfl
@[simp] theorem State.withAgenda_msgBuf (s : State) (rest : List Move) :
    (s.withAgenda rest).msgBuf = s.msgBuf := rfl
@[simp] theorem State.withAgenda_cmd (s : State) (rest : List Move) :
    (s.withAgenda rest).cmd = s.cmd := rfl
@[simp] theorem State.withAgenda_cmdArg (s : State) (rest : List Move) :
    (s.withAgenda rest).cmdArg = s.cmdArg := rfl
@[simp] theorem State.withAgenda_status (s : State) (rest : List Move) :
    (s.withAgenda rest).status = s.status := rfl
@[simp] theorem State.withAgenda_attempts (s : State) (rest : List Move) :
    (s.withAgenda rest).attempts = s.attempts := rfl
@[simp] theorem State.withAgenda_xferData (s : State) (rest : List Move) :
    (s.withAgenda rest).xferData = s.xferData := rfl
@[simp] theorem State.withAgenda_rlen (s : State) (rest : List Move) :
    (s.withAgenda rest).rlen = s.rlen := rfl
@[simp] theorem State.withAgenda_xferT (s : State) (rest : List Move) :
    (s.withAgenda rest).xferT = s.xferT := rfl
@[simp] theorem State.withAgenda_link (s : State) (rest : List Move) :
    (s.withAgenda rest).link = s.link := rfl
@[simp] theorem State.withAgenda_dout (s : State) (rest : List Move) :
    (s.withAgenda rest).dout = s.dout := rfl
@[simp] theorem State.withAgenda_dir (s : State) (rest : List Move) :
    (s.withAgenda rest).dir = s.dir := rfl
@[simp] theorem State.withAgenda_attn (s : State) (rest : List Move) :
    (s.withAgenda rest).attn = s.attn := rfl
@[simp] theorem State.withAgenda_ack (s : State) (rest : List Move) :
    (s.withAgenda rest).ack = s.ack := rfl
@[simp] theorem State.withAgenda_monT (s : State) (rest : List Move) :
    (s.withAgenda rest).monT = s.monT := rfl
@[simp] theorem State.withAgenda_ctlT (s : State) (rest : List Move) :
    (s.withAgenda rest).ctlT = s.ctlT := rfl
@[simp] theorem State.withAgenda_seq (s : State) (rest : List Move) :
    (s.withAgenda rest).seq = s.seq := rfl
@[simp] theorem State.withAgenda_tmr (s : State) (rest : List Move) :
    (s.withAgenda rest).tmr = s.tmr := rfl
@[simp] theorem State.withAgenda_la (s : State) (rest : List Move) :
    (s.withAgenda rest).la = s.la := rfl
@[simp] theorem State.withAgenda_ll (s : State) (rest : List Move) :
    (s.withAgenda rest).ll = s.ll := rfl
@[simp] theorem State.withAgenda_q (s : State) (rest : List Move) :
    (s.withAgenda rest).q = s.q := rfl
@[simp] theorem State.withAgenda_tof (s : State) (rest : List Move) :
    (s.withAgenda rest).tof = s.tof := rfl
@[simp] theorem State.withAgenda_trace (s : State) (rest : List Move) :
    (s.withAgenda rest).trace = s.trace := rfl
@[simp] theorem State.withAgenda_refused (s : State) (rest : List Move) :
    (s.withAgenda rest).refused = s.refused := rfl
@[simp] theorem State.withAgenda_build (s : State) (rest : List Move) :
    (s.withAgenda rest).build = s.build := rfl
@[simp] theorem State.withAgenda_agenda (s : State) (rest : List Move) :
    (s.withAgenda rest).agenda = rest := rfl
@[simp] theorem State.withAgenda_strobes (s : State) (rest : List Move) :
    (s.withAgenda rest).strobes = s.strobes := rfl
@[simp] theorem State.withAgenda_dins (s : State) (rest : List Move) :
    (s.withAgenda rest).dins = s.dins := rfl
@[simp] theorem State.withAgenda_draws (s : State) (rest : List Move) :
    (s.withAgenda rest).draws = s.draws := rfl
@[simp] theorem State.withAgenda_reads (s : State) (rest : List Move) :
    (s.withAgenda rest).reads = s.reads := rfl
@[simp] theorem State.withAgenda_ceil (s : State) (rest : List Move) :
    (s.withAgenda rest).ceil = s.ceil := rfl

/-! ### `State.gotByte` -/

@[simp] theorem State.gotByte_msgAddr (s : State) (off : Nat) (v : Byte) :
    (s.gotByte off v).msgAddr = s.msgAddr := rfl
@[simp] theorem State.gotByte_msgDir (s : State) (off : Nat) (v : Byte) :
    (s.gotByte off v).msgDir = s.msgDir := rfl
@[simp] theorem State.gotByte_msgLen (s : State) (off : Nat) (v : Byte) :
    (s.gotByte off v).msgLen = s.msgLen := rfl
@[simp] theorem State.gotByte_msgBuf (s : State) (off : Nat) (v : Byte) :
    (s.gotByte off v).msgBuf = s.msgBuf := rfl
@[simp] theorem State.gotByte_cmd (s : State) (off : Nat) (v : Byte) :
    (s.gotByte off v).cmd = s.cmd := rfl
@[simp] theorem State.gotByte_cmdArg (s : State) (off : Nat) (v : Byte) :
    (s.gotByte off v).cmdArg = s.cmdArg := rfl
@[simp] theorem State.gotByte_status (s : State) (off : Nat) (v : Byte) :
    (s.gotByte off v).status = s.status := rfl
@[simp] theorem State.gotByte_attempts (s : State) (off : Nat) (v : Byte) :
    (s.gotByte off v).attempts = s.attempts := rfl
@[simp] theorem State.gotByte_xferData (s : State) (off : Nat) (v : Byte) :
    (s.gotByte off v).xferData = s.xferData := rfl
@[simp] theorem State.gotByte_rlen (s : State) (off : Nat) (v : Byte) :
    (s.gotByte off v).rlen = s.rlen := rfl
@[simp] theorem State.gotByte_xferT (s : State) (off : Nat) (v : Byte) :
    (s.gotByte off v).xferT = s.xferT := rfl
@[simp] theorem State.gotByte_link (s : State) (off : Nat) (v : Byte) :
    (s.gotByte off v).link = s.link := rfl
@[simp] theorem State.gotByte_dout (s : State) (off : Nat) (v : Byte) :
    (s.gotByte off v).dout = s.dout := rfl
@[simp] theorem State.gotByte_dir (s : State) (off : Nat) (v : Byte) :
    (s.gotByte off v).dir = s.dir := rfl
@[simp] theorem State.gotByte_attn (s : State) (off : Nat) (v : Byte) :
    (s.gotByte off v).attn = s.attn := rfl
@[simp] theorem State.gotByte_ack (s : State) (off : Nat) (v : Byte) :
    (s.gotByte off v).ack = s.ack := rfl
@[simp] theorem State.gotByte_monT (s : State) (off : Nat) (v : Byte) :
    (s.gotByte off v).monT = s.monT := rfl
@[simp] theorem State.gotByte_ctlT (s : State) (off : Nat) (v : Byte) :
    (s.gotByte off v).ctlT = s.ctlT := rfl
@[simp] theorem State.gotByte_seq (s : State) (off : Nat) (v : Byte) :
    (s.gotByte off v).seq = s.seq := rfl
@[simp] theorem State.gotByte_tmr (s : State) (off : Nat) (v : Byte) :
    (s.gotByte off v).tmr = s.tmr := rfl
@[simp] theorem State.gotByte_la (s : State) (off : Nat) (v : Byte) :
    (s.gotByte off v).la = s.la := rfl
@[simp] theorem State.gotByte_ll (s : State) (off : Nat) (v : Byte) :
    (s.gotByte off v).ll = s.ll := rfl
@[simp] theorem State.gotByte_q (s : State) (off : Nat) (v : Byte) :
    (s.gotByte off v).q = s.q := rfl
@[simp] theorem State.gotByte_tof (s : State) (off : Nat) (v : Byte) :
    (s.gotByte off v).tof = s.tof := rfl
@[simp] theorem State.gotByte_trace (s : State) (off : Nat) (v : Byte) :
    (s.gotByte off v).trace = s.trace := rfl
@[simp] theorem State.gotByte_refused (s : State) (off : Nat) (v : Byte) :
    (s.gotByte off v).refused = s.refused := rfl
@[simp] theorem State.gotByte_build (s : State) (off : Nat) (v : Byte) :
    (s.gotByte off v).build = s.build := rfl
@[simp] theorem State.gotByte_agenda (s : State) (off : Nat) (v : Byte) :
    (s.gotByte off v).agenda = s.agenda := rfl
@[simp] theorem State.gotByte_strobes (s : State) (off : Nat) (v : Byte) :
    (s.gotByte off v).strobes = s.strobes := rfl
@[simp] theorem State.gotByte_dins (s : State) (off : Nat) (v : Byte) :
    (s.gotByte off v).dins = s.dins := rfl
@[simp] theorem State.gotByte_draws (s : State) (off : Nat) (v : Byte) :
    (s.gotByte off v).draws = s.draws := rfl
@[simp] theorem State.gotByte_reads (s : State) (off : Nat) (v : Byte) :
    (s.gotByte off v).reads = s.reads ++ [(off, v)] := rfl
@[simp] theorem State.gotByte_ceil (s : State) (off : Nat) (v : Byte) :
    (s.gotByte off v).ceil = s.ceil := rfl

/-! ### `State.strobeTaken` -/

@[simp] theorem State.strobeTaken_msgAddr (s : State) : (s.strobeTaken).msgAddr = s.msgAddr := by
  unfold State.strobeTaken; split <;> rfl
@[simp] theorem State.strobeTaken_msgDir (s : State) : (s.strobeTaken).msgDir = s.msgDir := by
  unfold State.strobeTaken; split <;> rfl
@[simp] theorem State.strobeTaken_msgLen (s : State) : (s.strobeTaken).msgLen = s.msgLen := by
  unfold State.strobeTaken; split <;> rfl
@[simp] theorem State.strobeTaken_msgBuf (s : State) : (s.strobeTaken).msgBuf = s.msgBuf := by
  unfold State.strobeTaken; split <;> rfl
@[simp] theorem State.strobeTaken_cmd (s : State) : (s.strobeTaken).cmd = s.cmd := by
  unfold State.strobeTaken; split <;> rfl
@[simp] theorem State.strobeTaken_cmdArg (s : State) : (s.strobeTaken).cmdArg = s.cmdArg := by
  unfold State.strobeTaken; split <;> rfl
@[simp] theorem State.strobeTaken_status (s : State) : (s.strobeTaken).status = s.status := by
  unfold State.strobeTaken; split <;> rfl
@[simp] theorem State.strobeTaken_attempts (s : State) : (s.strobeTaken).attempts = s.attempts := by
  unfold State.strobeTaken; split <;> rfl
@[simp] theorem State.strobeTaken_xferData (s : State) : (s.strobeTaken).xferData = s.xferData := by
  unfold State.strobeTaken; split <;> rfl
@[simp] theorem State.strobeTaken_rlen (s : State) : (s.strobeTaken).rlen = s.rlen := by
  unfold State.strobeTaken; split <;> rfl
@[simp] theorem State.strobeTaken_xferT (s : State) : (s.strobeTaken).xferT = s.xferT := by
  unfold State.strobeTaken; split <;> rfl
@[simp] theorem State.strobeTaken_link (s : State) : (s.strobeTaken).link = s.link := by
  unfold State.strobeTaken; split <;> rfl
@[simp] theorem State.strobeTaken_dout (s : State) : (s.strobeTaken).dout = s.dout := by
  unfold State.strobeTaken; split <;> rfl
@[simp] theorem State.strobeTaken_dir (s : State) : (s.strobeTaken).dir = s.dir := by
  unfold State.strobeTaken; split <;> rfl
@[simp] theorem State.strobeTaken_attn (s : State) : (s.strobeTaken).attn = s.attn := by
  unfold State.strobeTaken; split <;> rfl
@[simp] theorem State.strobeTaken_ack (s : State) : (s.strobeTaken).ack = s.ack := by
  unfold State.strobeTaken; split <;> rfl
@[simp] theorem State.strobeTaken_monT (s : State) : (s.strobeTaken).monT = s.monT := by
  unfold State.strobeTaken; split <;> rfl
@[simp] theorem State.strobeTaken_ctlT (s : State) : (s.strobeTaken).ctlT = s.ctlT := by
  unfold State.strobeTaken; split <;> rfl
@[simp] theorem State.strobeTaken_seq (s : State) : (s.strobeTaken).seq = s.seq := by
  unfold State.strobeTaken; split <;> rfl
@[simp] theorem State.strobeTaken_tmr (s : State) : (s.strobeTaken).tmr = s.tmr := by
  unfold State.strobeTaken; split <;> rfl
@[simp] theorem State.strobeTaken_la (s : State) : (s.strobeTaken).la = s.la := by
  unfold State.strobeTaken; split <;> rfl
@[simp] theorem State.strobeTaken_ll (s : State) : (s.strobeTaken).ll = s.ll := by
  unfold State.strobeTaken; split <;> rfl
@[simp] theorem State.strobeTaken_q (s : State) : (s.strobeTaken).q = s.q := by
  unfold State.strobeTaken; split <;> rfl
@[simp] theorem State.strobeTaken_tof (s : State) : (s.strobeTaken).tof = s.tof := by
  unfold State.strobeTaken; split <;> rfl
@[simp] theorem State.strobeTaken_trace (s : State) : (s.strobeTaken).trace = s.trace := by
  unfold State.strobeTaken; split <;> rfl
@[simp] theorem State.strobeTaken_refused (s : State) : (s.strobeTaken).refused = s.refused := by
  unfold State.strobeTaken; split <;> rfl
@[simp] theorem State.strobeTaken_build (s : State) : (s.strobeTaken).build = s.build := by
  unfold State.strobeTaken; split <;> rfl
@[simp] theorem State.strobeTaken_agenda (s : State) : (s.strobeTaken).agenda = s.agenda := by
  unfold State.strobeTaken; split <;> rfl
@[simp] theorem State.strobeTaken_dins (s : State) : (s.strobeTaken).dins = s.dins := by
  unfold State.strobeTaken; split <;> rfl
@[simp] theorem State.strobeTaken_reads (s : State) : (s.strobeTaken).reads = s.reads := by
  unfold State.strobeTaken; split <;> rfl
@[simp] theorem State.strobeTaken_ceil (s : State) : (s.strobeTaken).ceil = s.ceil := by
  unfold State.strobeTaken; split <;> rfl

/-! ### `State.dinTaken` -/

@[simp] theorem State.dinTaken_msgAddr (s : State) : (s.dinTaken).msgAddr = s.msgAddr := by
  unfold State.dinTaken; split <;> rfl
@[simp] theorem State.dinTaken_msgDir (s : State) : (s.dinTaken).msgDir = s.msgDir := by
  unfold State.dinTaken; split <;> rfl
@[simp] theorem State.dinTaken_msgLen (s : State) : (s.dinTaken).msgLen = s.msgLen := by
  unfold State.dinTaken; split <;> rfl
@[simp] theorem State.dinTaken_msgBuf (s : State) : (s.dinTaken).msgBuf = s.msgBuf := by
  unfold State.dinTaken; split <;> rfl
@[simp] theorem State.dinTaken_cmd (s : State) : (s.dinTaken).cmd = s.cmd := by
  unfold State.dinTaken; split <;> rfl
@[simp] theorem State.dinTaken_cmdArg (s : State) : (s.dinTaken).cmdArg = s.cmdArg := by
  unfold State.dinTaken; split <;> rfl
@[simp] theorem State.dinTaken_status (s : State) : (s.dinTaken).status = s.status := by
  unfold State.dinTaken; split <;> rfl
@[simp] theorem State.dinTaken_attempts (s : State) : (s.dinTaken).attempts = s.attempts := by
  unfold State.dinTaken; split <;> rfl
@[simp] theorem State.dinTaken_xferData (s : State) : (s.dinTaken).xferData = s.xferData := by
  unfold State.dinTaken; split <;> rfl
@[simp] theorem State.dinTaken_rlen (s : State) : (s.dinTaken).rlen = s.rlen := by
  unfold State.dinTaken; split <;> rfl
@[simp] theorem State.dinTaken_xferT (s : State) : (s.dinTaken).xferT = s.xferT := by
  unfold State.dinTaken; split <;> rfl
@[simp] theorem State.dinTaken_link (s : State) : (s.dinTaken).link = s.link := by
  unfold State.dinTaken; split <;> rfl
@[simp] theorem State.dinTaken_dout (s : State) : (s.dinTaken).dout = s.dout := by
  unfold State.dinTaken; split <;> rfl
@[simp] theorem State.dinTaken_dir (s : State) : (s.dinTaken).dir = s.dir := by
  unfold State.dinTaken; split <;> rfl
@[simp] theorem State.dinTaken_attn (s : State) : (s.dinTaken).attn = s.attn := by
  unfold State.dinTaken; split <;> rfl
@[simp] theorem State.dinTaken_ack (s : State) : (s.dinTaken).ack = s.ack := by
  unfold State.dinTaken; split <;> rfl
@[simp] theorem State.dinTaken_monT (s : State) : (s.dinTaken).monT = s.monT := by
  unfold State.dinTaken; split <;> rfl
@[simp] theorem State.dinTaken_ctlT (s : State) : (s.dinTaken).ctlT = s.ctlT := by
  unfold State.dinTaken; split <;> rfl
@[simp] theorem State.dinTaken_seq (s : State) : (s.dinTaken).seq = s.seq := by
  unfold State.dinTaken; split <;> rfl
@[simp] theorem State.dinTaken_tmr (s : State) : (s.dinTaken).tmr = s.tmr := by
  unfold State.dinTaken; split <;> rfl
@[simp] theorem State.dinTaken_la (s : State) : (s.dinTaken).la = s.la := by
  unfold State.dinTaken; split <;> rfl
@[simp] theorem State.dinTaken_ll (s : State) : (s.dinTaken).ll = s.ll := by
  unfold State.dinTaken; split <;> rfl
@[simp] theorem State.dinTaken_q (s : State) : (s.dinTaken).q = s.q := by
  unfold State.dinTaken; split <;> rfl
@[simp] theorem State.dinTaken_tof (s : State) : (s.dinTaken).tof = s.tof := by
  unfold State.dinTaken; split <;> rfl
@[simp] theorem State.dinTaken_trace (s : State) : (s.dinTaken).trace = s.trace := by
  unfold State.dinTaken; split <;> rfl
@[simp] theorem State.dinTaken_refused (s : State) : (s.dinTaken).refused = s.refused := by
  unfold State.dinTaken; split <;> rfl
@[simp] theorem State.dinTaken_build (s : State) : (s.dinTaken).build = s.build := by
  unfold State.dinTaken; split <;> rfl
@[simp] theorem State.dinTaken_agenda (s : State) : (s.dinTaken).agenda = s.agenda := by
  unfold State.dinTaken; split <;> rfl
@[simp] theorem State.dinTaken_strobes (s : State) : (s.dinTaken).strobes = s.strobes := by
  unfold State.dinTaken; split <;> rfl
@[simp] theorem State.dinTaken_reads (s : State) : (s.dinTaken).reads = s.reads := by
  unfold State.dinTaken; split <;> rfl
@[simp] theorem State.dinTaken_ceil (s : State) : (s.dinTaken).ceil = s.ceil := by
  unfold State.dinTaken; split <;> rfl

/-! ### `State.senseByte` -/

@[simp] theorem State.senseByte_msgAddr (s : State) : (s.senseByte).msgAddr = s.msgAddr := by
  simp [State.senseByte]
@[simp] theorem State.senseByte_msgDir (s : State) : (s.senseByte).msgDir = s.msgDir := by
  simp [State.senseByte]
@[simp] theorem State.senseByte_msgLen (s : State) : (s.senseByte).msgLen = s.msgLen := by
  simp [State.senseByte]
@[simp] theorem State.senseByte_msgBuf (s : State) : (s.senseByte).msgBuf = s.msgBuf := by
  simp [State.senseByte]
@[simp] theorem State.senseByte_cmd (s : State) : (s.senseByte).cmd = s.cmd := by
  simp [State.senseByte]
@[simp] theorem State.senseByte_cmdArg (s : State) : (s.senseByte).cmdArg = s.cmdArg := by
  simp [State.senseByte]
@[simp] theorem State.senseByte_status (s : State) : (s.senseByte).status = s.status := by
  simp [State.senseByte]
@[simp] theorem State.senseByte_attempts (s : State) : (s.senseByte).attempts = s.attempts := by
  simp [State.senseByte]
@[simp] theorem State.senseByte_xferData (s : State) : (s.senseByte).xferData = s.xferData := by
  simp [State.senseByte]
@[simp] theorem State.senseByte_rlen (s : State) : (s.senseByte).rlen = s.rlen := by
  simp [State.senseByte]
@[simp] theorem State.senseByte_xferT (s : State) : (s.senseByte).xferT = s.xferT := by
  simp [State.senseByte]
@[simp] theorem State.senseByte_link (s : State) : (s.senseByte).link = s.link := by
  simp [State.senseByte]
@[simp] theorem State.senseByte_dout (s : State) : (s.senseByte).dout = s.dout := by
  simp [State.senseByte]
@[simp] theorem State.senseByte_dir (s : State) : (s.senseByte).dir = s.dir := by
  simp [State.senseByte]
@[simp] theorem State.senseByte_attn (s : State) : (s.senseByte).attn = s.attn := by
  simp [State.senseByte]
@[simp] theorem State.senseByte_ack (s : State) : (s.senseByte).ack = s.ack := by
  simp [State.senseByte]
@[simp] theorem State.senseByte_monT (s : State) : (s.senseByte).monT = s.monT := by
  simp [State.senseByte]
@[simp] theorem State.senseByte_ctlT (s : State) : (s.senseByte).ctlT = s.ctlT := by
  simp [State.senseByte]
@[simp] theorem State.senseByte_seq (s : State) : (s.senseByte).seq = s.seq := by
  simp [State.senseByte]
@[simp] theorem State.senseByte_tmr (s : State) : (s.senseByte).tmr = s.tmr := by
  simp [State.senseByte]
@[simp] theorem State.senseByte_la (s : State) : (s.senseByte).la = s.la := by
  simp [State.senseByte]
@[simp] theorem State.senseByte_ll (s : State) : (s.senseByte).ll = s.ll := by
  simp [State.senseByte]
@[simp] theorem State.senseByte_q (s : State) : (s.senseByte).q = s.q := by simp [State.senseByte]
@[simp] theorem State.senseByte_tof (s : State) : (s.senseByte).tof = s.tof := by
  simp [State.senseByte]
@[simp] theorem State.senseByte_refused (s : State) : (s.senseByte).refused = s.refused := by
  simp [State.senseByte]
@[simp] theorem State.senseByte_build (s : State) : (s.senseByte).build = s.build := by
  simp [State.senseByte]
@[simp] theorem State.senseByte_agenda (s : State) : (s.senseByte).agenda = s.agenda := by
  simp [State.senseByte]
@[simp] theorem State.senseByte_strobes (s : State) : (s.senseByte).strobes = s.strobes := by
  simp [State.senseByte]
@[simp] theorem State.senseByte_reads (s : State) : (s.senseByte).reads = s.reads := by
  simp [State.senseByte]
@[simp] theorem State.senseByte_ceil (s : State) : (s.senseByte).ceil = s.ceil := by
  simp [State.ceil]

@[simp] theorem State.senseByte_trace (s : State) :
    s.senseByte.trace = s.trace ++ [.sense s.din] := by simp [State.senseByte]

/-! ### `STATUS` -/

@[simp] theorem Status.finished_busy (st : Status) (ok : Bool) (code : ErrCode) :
    (st.finished ok code).busy = false := rfl
@[simp] theorem Status.finished_done (st : Status) (ok : Bool) (code : ErrCode) :
    (st.finished ok code).done = true := rfl
@[simp] theorem Status.finished_ok (st : Status) (ok : Bool) (code : ErrCode) :
    (st.finished ok code).ok = ok := rfl
@[simp] theorem Status.finished_timeout (st : Status) (ok : Bool) (code : ErrCode) :
    (st.finished ok code).timeout = st.timeout := rfl
@[simp] theorem Status.finished_ecode (st : Status) (ok : Bool) (code : ErrCode) :
    (st.finished ok code).ecode = code := rfl
@[simp] theorem Status.rejected_busy (code : ErrCode) : (Status.rejected code).busy = false := rfl
@[simp] theorem Status.rejected_done (code : ErrCode) : (Status.rejected code).done = true := rfl
@[simp] theorem Status.rejected_ok (code : ErrCode) : (Status.rejected code).ok = false := rfl
@[simp] theorem Status.rejected_timeout (code : ErrCode) :
    (Status.rejected code).timeout = false := rfl
@[simp] theorem Status.rejected_ecode (code : ErrCode) : (Status.rejected code).ecode = code := rfl
@[simp] theorem Status.accepted_busy : Status.accepted.busy = true := rfl
@[simp] theorem Status.accepted_done : Status.accepted.done = false := rfl
@[simp] theorem Status.accepted_ok : Status.accepted.ok = false := rfl
@[simp] theorem Status.accepted_timeout : Status.accepted.timeout = false := rfl
@[simp] theorem Status.accepted_ecode : Status.accepted.ecode = .none := rfl
@[simp] theorem Status.markTimeout_busy (st : Status) : st.markTimeout.busy = st.busy := rfl
@[simp] theorem Status.markTimeout_done (st : Status) : st.markTimeout.done = st.done := rfl
@[simp] theorem Status.markTimeout_ok (st : Status) : st.markTimeout.ok = st.ok := rfl
@[simp] theorem Status.markTimeout_timeout (st : Status) : st.markTimeout.timeout = true := rfl
@[simp] theorem Status.markTimeout_ecode (st : Status) : st.markTimeout.ecode = st.ecode := rfl

end Sys2Proof.Machine
end

