-- ==== Sys2Proof/Laws/Ops.lean ====
section
/-! SUPPORT. For each shared operation one lemma, or a few, that say once what it can do, so that later
proofs cite them instead of unfolding it: the accept and its three outcomes, the poll and its three
outcomes, the end of an exchange, the end of a Monitor transaction, the window, and the step. -/

namespace Sys2Proof.Machine

/-! ### The accept (30_encoding.md R84) -/

@[simp] theorem State.accept_busy (s : State) (i : Instr) (check : Option ErrCode)
    (rule : State → State) (h : s.status.busy = true) :
    s.accept i check rule = .next s.refuseAccess := by
  simp [State.accept, h]

theorem State.accept_rejected (s : State) (i : Instr) (code : ErrCode) (rule : State → State)
    (h : s.status.busy = false) :
    s.accept i (some code) rule = .next ((s.takeCommand (encode i)).reject code) := by
  simp [State.accept, h]

theorem State.accept_runs (s : State) (i : Instr) (rule : State → State)
    (h : s.status.busy = false) :
    s.accept i none rule = .next (rule (s.accepted i)) := by
  simp [State.accept, h]

/-- An accept always answers a next state. -/
theorem State.accept_next (s : State) (i : Instr) (check : Option ErrCode) (rule : State → State) :
    ∃ t, s.accept i check rule = .next t := by
  unfold State.accept
  split
  · exact ⟨_, rfl⟩
  · split <;> exact ⟨_, rfl⟩

/-- What an accept can answer: the refusal of a busy block, a reject, or the command's rule begun. -/
theorem State.accept_cases {s t : State} {i : Instr} {check : Option ErrCode}
    {rule : State → State} (h : s.accept i check rule = .next t) :
    (s.status.busy = true ∧ t = s.refuseAccess) ∨
    (s.status.busy = false ∧ ∃ code, check = some code ∧
      t = (s.takeCommand (encode i)).reject code) ∨
    (s.status.busy = false ∧ check = none ∧ t = rule (s.accepted i)) := by
  unfold State.accept at h
  split at h
  · next hb => exact .inl ⟨hb, by simpa using h.symm⟩
  · next hb =>
    have hb' : s.status.busy = false := by simpa using hb
    split at h
    · next code => exact .inr (.inl ⟨hb', code, rfl, by simpa using h.symm⟩)
    · exact .inr (.inr ⟨hb', rfl, by simpa using h.symm⟩)

/-- The meaning of every command is an accept with the command's own check and rule. -/
theorem exec_is_accept (i : Instr) (s : State) :
    ∃ check rule, exec i s = s.accept i check rule := by
  cases i <;>
    simp only [exec, execXfer, execSetdir, execSetattn, execCtrl, execMon, execMonQ, execMonRetry,
      execFwd, execDiagRd] <;>
    exact ⟨_, _, rfl⟩

@[simp] theorem exec_xfer (m : Mode) (s : State) :
    exec (.xfer m) s = s.accept (.xfer m) (s.xferCheck m) fun t => t.startPhase (.xfer m) := rfl

@[simp] theorem exec_setdir (d : Dir) (s : State) :
    exec (.setdir d) s = s.accept (.setdir d) none fun t =>
      match d with
      | .drive => t.dirDrive.finish true .none
      | .sense => t.dirSense.finish true .none := rfl

@[simp] theorem exec_setattn (level : Bool) (s : State) :
    exec (.setattn level) s = s.accept (.setattn level) none fun t =>
      if level then t.attnOn.finish true .none else t.attnOff.finish true .none := rfl

@[simp] theorem exec_diagRd (sel : BitVec 3) (s : State) :
    exec (.diagRd sel) s = s.accept (.diagRd sel) (diagCheck sel) fun t =>
      if sel = 4 then t.snapshotReply.finish true .none
      else (t.timerReply sel).finish true .none := rfl

@[simp] theorem exec_ctrl (s : State) :
    exec .ctrl s = s.accept .ctrl s.txnCheck fun t => t.latch.startControl .ctrl := rfl

@[simp] theorem exec_mon (s : State) :
    exec .mon s = s.accept .mon s.txnCheck fun t => t.latch.startMonitor .mon false := rfl

@[simp] theorem exec_monQ (s : State) :
    exec .monQ s = s.accept .monQ s.txnCheck fun t => t.latch.startMonitor .monQ true := rfl

@[simp] theorem exec_monRetry (s : State) :
    exec .monRetry s =
      s.accept .monRetry s.txnCheck fun t => t.latch.startMonitor .monRetry true := rfl

theorem exec_fwd_monitor (e : FwdEntry) (s : State) (h : s.msgDir = .monitor) :
    exec (.fwd e) s =
      s.accept (.fwd e) s.txnCheck fun t => t.latch.startMonitor (.fwd e) true := by
  simp only [exec, execFwd, State.startRetryMonitor, State.accept, State.accepted_msgDir, h]

theorem exec_fwd_control (e : FwdEntry) (s : State) (h : s.msgDir = .control) :
    exec (.fwd e) s =
      s.accept (.fwd e) s.txnCheck fun t => t.latch.startControl (.fwd e) := by
  simp only [exec, execFwd, State.accept, State.accepted_msgDir, h]

theorem State.txnCheck_none {s : State} :
    s.txnCheck = none ↔ LinesDefault s ∧ s.msgLen.toNat ≤ 8 := by
  unfold State.txnCheck LinesDefault
  split <;> rename_i h
  · constructor
    · intro h'; cases h'
    · rintro ⟨⟨h1, h2⟩, -⟩; simp [h1, h2] at h
  · simp only [not_or, ne_eq, Decidable.not_not, Bool.not_eq_true] at h
    split <;> simp_all

theorem State.txnCheck_lines {s : State} (h : ¬ LinesDefault s) : s.txnCheck = some .lineState := by
  unfold State.txnCheck
  unfold LinesDefault at h
  rw [if_pos]
  by_contra hc
  simp only [not_or, ne_eq, Decidable.not_not, Bool.not_eq_true] at hc
  exact h hc

theorem State.txnCheck_length {s : State} (h : LinesDefault s) (hl : 8 < s.msgLen.toNat) :
    s.txnCheck = some .malformedLength := by
  unfold State.txnCheck
  rw [if_neg (by simp [h.1, h.2]), if_pos hl]

theorem State.xferCheck_none {s : State} {m : Mode} : s.xferCheck m = none ↔ s.dir = modeDir m := by
  unfold State.xferCheck modeDir
  cases m <;> cases s.dir <;> simp

theorem State.xferCheck_wrong {s : State} {m : Mode} (h : s.dir ≠ modeDir m) :
    s.xferCheck m = some .lineState := by
  unfold State.xferCheck
  unfold modeDir at h
  cases m <;> cases hd : s.dir <;> simp_all

/-- A transaction command whose accept check fails is rejected with the check's code. -/
theorem exec_transaction_rejected {i : Instr} {s : State} {code : ErrCode}
    (hi : isTransaction i = true) (hb : s.status.busy = false) (hc : s.txnCheck = some code) :
    exec i s = .next ((s.takeCommand (encode i)).reject code) := by
  cases i with
  | ctrl => rw [exec_ctrl, hc, State.accept_rejected _ _ _ _ hb]
  | mon => rw [exec_mon, hc, State.accept_rejected _ _ _ _ hb]
  | monQ => rw [exec_monQ, hc, State.accept_rejected _ _ _ _ hb]
  | monRetry => rw [exec_monRetry, hc, State.accept_rejected _ _ _ _ hb]
  | fwd e =>
    cases hd : s.msgDir with
    | monitor => rw [exec_fwd_monitor e s hd, hc, State.accept_rejected _ _ _ _ hb]
    | control => rw [exec_fwd_control e s hd, hc, State.accept_rejected _ _ _ _ hb]
  | xfer _ => cases hi
  | setdir _ => cases hi
  | setattn _ => cases hi
  | diagRd _ => cases hi

/-! ### The poll (40_transfer_primitive.md R110) -/

@[simp] theorem State.blockMove_idle (s : State) (h : s.seq = .idle) : s.blockMove = s := by
  simp [State.blockMove, h]

theorem State.blockMove_running (s : State) (h : s.seq ≠ .idle) : s.blockMove = s.pollMove := by
  unfold State.blockMove
  split
  · next hs => exact absurd hs h
  · rfl

/-- A failed poll that leaves counts: the same phase waits on. -/
theorem State.pollMove_waits (s : State) (hs : s.strobe = false) (ht : s.tmr - 1 ≠ 0) :
    s.pollMove = (s.strobeTaken.emit (.poll false)).countDown := by
  unfold State.pollMove State.pollEnds State.pollStrobe
  rw [hs, if_neg (by simpa using ht)]
  simp

/-- A poll that sees the strobe ends the phase with the countdown as it stands. -/
theorem State.pollMove_seen (s : State) (hs : s.strobe = true) :
    s.pollMove = (s.strobeTaken.emit (.poll true)).endPhase := by
  simp [State.pollMove, State.pollEnds, State.pollStrobe, hs]

/-- A failed poll that uses up the countdown ends the phase as a timeout. -/
theorem State.pollMove_timesOut (s : State) (hs : s.strobe = false) (ht : s.tmr - 1 = 0) :
    s.pollMove = (s.strobeTaken.emit (.poll false)).countDown.endPhase := by
  unfold State.pollMove State.pollEnds State.pollStrobe
  rw [hs, if_pos (by simpa using ht)]
  simp

/-- What a poll can do: wait on, end the phase with the strobe, or end it as a timeout. -/
theorem State.pollMove_cases (s : State) :
    (s.strobe = false ∧ s.tmr - 1 ≠ 0 ∧
      s.pollMove = (s.strobeTaken.emit (.poll false)).countDown) ∨
    (s.strobe = true ∧ s.pollMove = (s.strobeTaken.emit (.poll true)).endPhase) ∨
    (s.strobe = false ∧ s.tmr - 1 = 0 ∧
      s.pollMove = (s.strobeTaken.emit (.poll false)).countDown.endPhase) := by
  cases hs : s.strobe
  · by_cases ht : s.tmr - 1 = 0
    · exact .inr (.inr ⟨rfl, ht, s.pollMove_timesOut hs ht⟩)
    · exact .inl ⟨rfl, ht, s.pollMove_waits hs ht⟩
  · exact .inr (.inl ⟨rfl, s.pollMove_seen hs⟩)

/-! ### Draws (00_scope.md R7) -/

/-- A STROBE sample uses up at most an entry of the list or a count. -/
theorem State.strobeTaken_shape (s : State) :
    ∃ l n, s.strobeTaken = { s with strobes := l, draws := n } := by
  unfold State.strobeTaken
  split
  · exact ⟨_, s.draws, rfl⟩
  · exact ⟨s.strobes, _, rfl⟩

/-- A data-line sample uses up at most an entry of the list or a count. -/
theorem State.dinTaken_shape (s : State) :
    ∃ l n, s.dinTaken = { s with dins := l, draws := n } := by
  unfold State.dinTaken
  split
  · exact ⟨_, s.draws, rfl⟩
  · exact ⟨s.dins, _, rfl⟩

theorem State.strobe_cons {s : State} {b : Bool} {bs : List Bool} (h : s.strobes = b :: bs) :
    s.strobe = b ∧ s.strobeTaken = { s with strobes := bs } := by
  simp [State.strobe, State.strobeTaken, h]

theorem State.din_cons {s : State} {b : Byte} {bs : List Byte} (h : s.dins = b :: bs) :
    s.din = b ∧ s.dinTaken = { s with dins := bs } := by
  simp [State.din, State.dinTaken, h]

/-! ### The end of an exchange (40_transfer_primitive.md R110, R112, R113) -/

@[simp] theorem State.dataLeg_msgAddr (s : State) : s.dataLeg.msgAddr = s.msgAddr := by
  unfold State.dataLeg; split <;> simp
@[simp] theorem State.dataLeg_msgDir (s : State) : s.dataLeg.msgDir = s.msgDir := by
  unfold State.dataLeg; split <;> simp
@[simp] theorem State.dataLeg_msgLen (s : State) : s.dataLeg.msgLen = s.msgLen := by
  unfold State.dataLeg; split <;> simp
@[simp] theorem State.dataLeg_msgBuf (s : State) : s.dataLeg.msgBuf = s.msgBuf := by
  unfold State.dataLeg; split <;> simp
@[simp] theorem State.dataLeg_cmd (s : State) : s.dataLeg.cmd = s.cmd := by
  unfold State.dataLeg; split <;> simp
@[simp] theorem State.dataLeg_cmdArg (s : State) : s.dataLeg.cmdArg = s.cmdArg := by
  unfold State.dataLeg; split <;> simp
@[simp] theorem State.dataLeg_attempts (s : State) : s.dataLeg.attempts = s.attempts := by
  unfold State.dataLeg; split <;> simp
@[simp] theorem State.dataLeg_xferData (s : State) : s.dataLeg.xferData = s.xferData := by
  unfold State.dataLeg; split <;> simp
@[simp] theorem State.dataLeg_rlen (s : State) : s.dataLeg.rlen = s.rlen := by
  unfold State.dataLeg; split <;> simp
@[simp] theorem State.dataLeg_xferT (s : State) : s.dataLeg.xferT = s.xferT := by
  unfold State.dataLeg; split <;> simp
@[simp] theorem State.dataLeg_link (s : State) : s.dataLeg.link = s.link := by
  unfold State.dataLeg; split <;> simp
@[simp] theorem State.dataLeg_dir (s : State) : s.dataLeg.dir = s.dir := by
  unfold State.dataLeg; split <;> simp
@[simp] theorem State.dataLeg_attn (s : State) : s.dataLeg.attn = s.attn := by
  unfold State.dataLeg; split <;> simp
@[simp] theorem State.dataLeg_monT (s : State) : s.dataLeg.monT = s.monT := by
  unfold State.dataLeg; split <;> simp
@[simp] theorem State.dataLeg_ctlT (s : State) : s.dataLeg.ctlT = s.ctlT := by
  unfold State.dataLeg; split <;> simp
@[simp] theorem State.dataLeg_seq (s : State) : s.dataLeg.seq = s.seq := by
  unfold State.dataLeg; split <;> simp
@[simp] theorem State.dataLeg_tmr (s : State) : s.dataLeg.tmr = s.tmr := by
  unfold State.dataLeg; split <;> simp
@[simp] theorem State.dataLeg_la (s : State) : s.dataLeg.la = s.la := by
  unfold State.dataLeg; split <;> simp
@[simp] theorem State.dataLeg_ll (s : State) : s.dataLeg.ll = s.ll := by
  unfold State.dataLeg; split <;> simp
@[simp] theorem State.dataLeg_q (s : State) : s.dataLeg.q = s.q := by
  unfold State.dataLeg; split <;> simp
@[simp] theorem State.dataLeg_tof (s : State) : s.dataLeg.tof = s.tof := by
  unfold State.dataLeg; split <;> simp
@[simp] theorem State.dataLeg_refused (s : State) : s.dataLeg.refused = s.refused := by
  unfold State.dataLeg; split <;> simp
@[simp] theorem State.dataLeg_build (s : State) : s.dataLeg.build = s.build := by
  unfold State.dataLeg; split <;> simp
@[simp] theorem State.dataLeg_agenda (s : State) : s.dataLeg.agenda = s.agenda := by
  unfold State.dataLeg; split <;> simp
@[simp] theorem State.dataLeg_strobes (s : State) : s.dataLeg.strobes = s.strobes := by
  unfold State.dataLeg; split <;> simp
@[simp] theorem State.dataLeg_reads (s : State) : s.dataLeg.reads = s.reads := by
  unfold State.dataLeg; split <;> simp
@[simp] theorem State.dataLeg_status (s : State) : s.dataLeg.status = s.status := by
  unfold State.dataLeg; split <;> simp
@[simp] theorem State.dataLeg_ack (s : State) : s.dataLeg.ack = false := by
  unfold State.dataLeg; split <;> simp
@[simp] theorem State.dataLeg_ceil (s : State) : s.dataLeg.ceil = s.ceil := by
  simp [State.ceil]

@[simp] theorem State.endExchange_msgAddr (s : State) : s.endExchange.msgAddr = s.msgAddr := by
  unfold State.endExchange; split <;> split <;> simp
@[simp] theorem State.endExchange_msgDir (s : State) : s.endExchange.msgDir = s.msgDir := by
  unfold State.endExchange; split <;> split <;> simp
@[simp] theorem State.endExchange_msgLen (s : State) : s.endExchange.msgLen = s.msgLen := by
  unfold State.endExchange; split <;> split <;> simp
@[simp] theorem State.endExchange_msgBuf (s : State) : s.endExchange.msgBuf = s.msgBuf := by
  unfold State.endExchange; split <;> split <;> simp
@[simp] theorem State.endExchange_cmd (s : State) : s.endExchange.cmd = s.cmd := by
  unfold State.endExchange; split <;> split <;> simp
@[simp] theorem State.endExchange_cmdArg (s : State) : s.endExchange.cmdArg = s.cmdArg := by
  unfold State.endExchange; split <;> split <;> simp
@[simp] theorem State.endExchange_attempts (s : State) : s.endExchange.attempts = s.attempts := by
  unfold State.endExchange; split <;> split <;> simp
@[simp] theorem State.endExchange_xferData (s : State) : s.endExchange.xferData = s.xferData := by
  unfold State.endExchange; split <;> split <;> simp
@[simp] theorem State.endExchange_rlen (s : State) : s.endExchange.rlen = s.rlen := by
  unfold State.endExchange; split <;> split <;> simp
@[simp] theorem State.endExchange_xferT (s : State) : s.endExchange.xferT = s.xferT := by
  unfold State.endExchange; split <;> split <;> simp
@[simp] theorem State.endExchange_link (s : State) : s.endExchange.link = s.link := by
  unfold State.endExchange; split <;> split <;> simp
@[simp] theorem State.endExchange_dir (s : State) : s.endExchange.dir = s.dir := by
  unfold State.endExchange; split <;> split <;> simp
@[simp] theorem State.endExchange_attn (s : State) : s.endExchange.attn = s.attn := by
  unfold State.endExchange; split <;> split <;> simp
@[simp] theorem State.endExchange_monT (s : State) : s.endExchange.monT = s.monT := by
  unfold State.endExchange; split <;> split <;> simp
@[simp] theorem State.endExchange_ctlT (s : State) : s.endExchange.ctlT = s.ctlT := by
  unfold State.endExchange; split <;> split <;> simp
@[simp] theorem State.endExchange_seq (s : State) : s.endExchange.seq = s.seq := by
  unfold State.endExchange; split <;> split <;> simp
@[simp] theorem State.endExchange_tmr (s : State) : s.endExchange.tmr = s.tmr := by
  unfold State.endExchange; split <;> split <;> simp
@[simp] theorem State.endExchange_la (s : State) : s.endExchange.la = s.la := by
  unfold State.endExchange; split <;> split <;> simp
@[simp] theorem State.endExchange_ll (s : State) : s.endExchange.ll = s.ll := by
  unfold State.endExchange; split <;> split <;> simp
@[simp] theorem State.endExchange_q (s : State) : s.endExchange.q = s.q := by
  unfold State.endExchange; split <;> split <;> simp
@[simp] theorem State.endExchange_tof (s : State) : s.endExchange.tof = s.tof := by
  unfold State.endExchange; split <;> split <;> simp
@[simp] theorem State.endExchange_refused (s : State) : s.endExchange.refused = s.refused := by
  unfold State.endExchange; split <;> split <;> simp
@[simp] theorem State.endExchange_build (s : State) : s.endExchange.build = s.build := by
  unfold State.endExchange; split <;> split <;> simp
@[simp] theorem State.endExchange_agenda (s : State) : s.endExchange.agenda = s.agenda := by
  unfold State.endExchange; split <;> split <;> simp
@[simp] theorem State.endExchange_strobes (s : State) : s.endExchange.strobes = s.strobes := by
  unfold State.endExchange; split <;> split <;> simp
@[simp] theorem State.endExchange_reads (s : State) : s.endExchange.reads = s.reads := by
  unfold State.endExchange; split <;> split <;> simp
@[simp] theorem State.endExchange_ceil (s : State) : s.endExchange.ceil = s.ceil := by
  simp [State.ceil]
@[simp] theorem State.endExchange_status (s : State) :
    s.endExchange.status = if s.phaseOk then s.status else s.status.markTimeout := by
  unfold State.endExchange; split <;> split <;> simp_all
theorem State.endExchange_ack (s : State) (h : s.ack = false) : s.endExchange.ack = false := by
  unfold State.endExchange; split <;> split <;> simp [h]

/-- A phase that saw the strobe performs its data leg. -/
theorem State.legPerformed_of_phaseOk {s : State} (h : s.phaseOk = true) : s.legPerformed = true := by
  simp [State.legPerformed, h]

/-- A read phase that saw the strobe has captured the byte on the data lines. -/
theorem State.captured_of_phaseOk {s : State} (h : s.phaseOk = true) (hm : s.seq.mode = .read) :
    s.captured = some s.din := by
  simp [State.captured, hm, State.legPerformed_of_phaseOk h]

/-! ### The end of a Monitor transaction (41_transactions.md R150, R156) -/

/-- What the end of a Monitor transaction can be: success; the failed quiet first attempt of a retrying
command, which begins the second one; a failure. -/
theorem State.endMonitor_cases (s : State) (c : MonCmd) (cause : ErrCode) :
    (s.tof = false ∧ s.endMonitor c cause = s.finish true .none) ∨
    (s.tof = true ∧ c.retries = true ∧ s.q = true ∧ s.endMonitor c cause = s.startMonitor c false) ∨
    (s.tof = true ∧ s.q = true ∧ c.retries = false ∧ s.endMonitor c cause = s.finish false cause) ∨
    (s.tof = true ∧ s.q = false ∧
      s.endMonitor c cause = s.suppressMessage.finish false cause) := by
  unfold State.endMonitor State.overwriteMessage
  cases ht : s.tof <;> cases hq : s.q <;> cases hr : c.retries <;> simp [ht, hq]

/-! ### Payload indices (20_memory.md R66) -/

theorem firstPayload_none {n : Byte} : firstPayload n = none ↔ n = 0 := by
  unfold firstPayload; split <;> simp_all

theorem firstPayload_some {n : Byte} {i : Fin 8} (h : firstPayload n = some i) :
    i = 0 ∧ 0 < n.toNat := by
  unfold firstPayload at h
  split at h
  · cases h
  · next hn =>
    refine ⟨by simpa using h.symm, Nat.pos_of_ne_zero fun h0 => hn ?_⟩
    exact BitVec.eq_of_toNat_eq (by simpa using h0)

theorem nextPayload_some {i j : Fin 8} {n : Byte} (h : nextPayload i n = some j) :
    j.val = i.val + 1 ∧ j.val < n.toNat := by
  unfold nextPayload at h
  split at h
  · split at h
    · next hn => cases h; exact ⟨rfl, hn⟩
    · cases h
  · cases h

/-! ### The continuation of a phase (40_transfer_primitive.md R110, 41_transactions.md R142) -/

/-- What the end of an exchange can be: a timeout without the leg, or a leg with the ack pulse, where `TO`
is set exactly on a timeout. -/
theorem State.endExchange_cases (s : State) :
    (s.phaseOk = false ∧ s.legPerformed = false ∧ s.endExchange = s.markTimeout) ∨
    (s.phaseOk = false ∧ s.legPerformed = true ∧ s.endExchange = s.markTimeout.dataLeg) ∨
    (s.phaseOk = true ∧ s.legPerformed = true ∧ s.endExchange = s.dataLeg) := by
  unfold State.endExchange
  cases hp : s.phaseOk
  · cases hl : s.legPerformed
    · exact .inl ⟨rfl, rfl, by simp⟩
    · exact .inr (.inl ⟨rfl, rfl, by simp⟩)
  · exact .inr (.inr ⟨rfl, State.legPerformed_of_phaseOk hp,
      by simp [State.legPerformed_of_phaseOk hp]⟩)

/-- What follows a Control phase: the abort of a timed-out first phase, the next phase, or the end. -/
theorem State.afterControlPhase_cases (s : State) (c : CtlCmd) (ph : CtlPhase) (ok : Bool) :
    (ph = .addr 0 ∧ ok = false ∧
      s.afterControlPhase c ph ok = (s.recordControl ph).attnOff.finish false .peerTimeout) ∨
    (∃ ph', ph.next s.ll = some ph' ∧
      s.afterControlPhase c ph ok = (s.recordControl ph).startPhase (.control c ph')) ∨
    (ph.next s.ll = none ∧ s.afterControlPhase c ph ok = (s.recordControl ph).endControl) := by
  unfold State.afterControlPhase
  by_cases h : ph = .addr 0 ∧ ok = false
  · exact .inl ⟨h.1, h.2, by simp only [if_pos h]⟩
  · cases hn : ph.next s.ll with
    | some ph' => exact .inr (.inl ⟨ph', rfl, by simp only [if_neg h]⟩)
    | none => exact .inr (.inr ⟨rfl, by simp only [if_neg h]⟩)

/-- The Control phase after another one lies one slot further, and a payload phase inside the payload. -/
theorem CtlPhase.next_slot {ph ph' : CtlPhase} {ll : Byte} (h : ph.next ll = some ph') :
    ph'.slot.val = ph.slot.val + 1 ∧ ∀ i, ph' = .payload i → i.val < ll.toNat := by
  cases ph with
  | addr k =>
    have key : ∀ (k : Fin 4) (ph' : CtlPhase), (CtlPhase.addr k).next ll = some ph' →
        (k = 0 ∧ ph' = .addr 1) ∨ (k = 1 ∧ ph' = .addr 2) ∨ (k = 2 ∧ ph' = .addr 3) ∨
          (k = 3 ∧ ph' = .len) := by
      intro k ph' h
      have hk : k = 0 ∨ k = 1 ∨ k = 2 ∨ k = 3 := by omega
      rcases hk with rfl | rfl | rfl | rfl <;>
        simp [CtlPhase.next, nextAddr] at h <;> simp [← h]
    rcases key k ph' h with ⟨rfl, rfl⟩ | ⟨rfl, rfl⟩ | ⟨rfl, rfl⟩ | ⟨rfl, rfl⟩ <;>
      exact ⟨rfl, fun _ hi => by cases hi⟩
  | len =>
    simp only [CtlPhase.next, Option.map_eq_some_iff] at h
    obtain ⟨i, hi, rfl⟩ := h
    obtain ⟨rfl, hpos⟩ := firstPayload_some hi
    exact ⟨rfl, fun _ hj => by cases hj; exact hpos⟩
  | payload i =>
    simp only [CtlPhase.next, Option.map_eq_some_iff] at h
    obtain ⟨j, hj, rfl⟩ := h
    obtain ⟨h1, h2⟩ := nextPayload_some hj
    refine ⟨?_, fun _ hk => by cases hk; exact h2⟩
    show 5 + j.val = 5 + i.val + 1
    omega

/-! ### The ceiling (00_scope.md R5) -/

theorem Build.ceil_toNat (b : Build) : b.ceil.toNat = b.ceilPred.val + 1 := by
  have := b.ceilPred.isLt
  simp only [Build.ceil, BitVec.toNat_ofNat]
  omega

theorem State.ceil_toNat_pos (s : State) : 1 ≤ s.ceil.toNat := by
  simp [State.ceil, Build.ceil_toNat]

/-! ### Moves and steps (00_scope.md R10) -/

/-- What a client read can do (20_memory.md R60, R63, R64). -/
theorem State.clientRead_cases (s : State) (off width : Nat) :
    (legalAccess off width = false ∧ s.clientRead off width = s.refuseAccess) ∨
    (s.status.busy = true ∧
      s.clientRead off width = s.drawTaken.gotByte off (Config.freeRead s.draws)) ∨
    (WinReg.ofOffset off = .lines ∧
      s.clientRead off width = s.strobeTaken.gotByte off (s.windowByte s.strobe off)) ∨
    (WinReg.ofOffset off ≠ .lines ∧
      s.clientRead off width = s.gotByte off (s.windowByte false off)) := by
  unfold State.clientRead
  split
  · next h => exact .inl ⟨h, rfl⟩
  · split
    · next h => exact .inr (.inl ⟨h.1, rfl⟩)
    · split
      · next h => exact .inr (.inr (.inl ⟨h, rfl⟩))
      · next h => exact .inr (.inr (.inr ⟨h, rfl⟩))

/-- What a client write can do (20_memory.md R60 to R64): be refused, be a command, or write a register
of an idle block. -/
theorem State.clientWrite_cases {s t : State} {off width : Nat} {v : Byte}
    (h : s.clientWrite off width v = .next t) :
    t = s.refuseAccess ∨
    (WinReg.ofOffset off = .cmd ∧ s.commandWrite v = .next t) ∨
    (s.status.busy = false ∧ WinReg.ofOffset off ≠ .cmd ∧
      t = s.writeReg (WinReg.ofOffset off) v) := by
  unfold State.clientWrite at h
  split at h
  · exact .inl (by simpa using h.symm)
  · split at h
    · next hc => exact .inr (.inl ⟨hc, h⟩)
    · next hc =>
      split at h
      · exact .inl (by simpa using h.symm)
      · next hb => exact .inr (.inr ⟨by simpa using hb, hc, by simpa using h.symm⟩)

/-- What a `CMD` write can do: the meaning of a decoded command, or the reject of an illegal byte. -/
theorem State.commandWrite_cases {s t : State} {c : Byte} (h : s.commandWrite c = .next t) :
    (∃ i, decode c = .ok i ∧ exec i s = .next t) ∨
    (∃ e, decode c = .error e ∧ t = s.acceptIllegal c e) := by
  unfold State.commandWrite at h
  split at h
  · next i hd => exact .inl ⟨i, hd, h⟩
  · next e hd => exact .inr ⟨e, hd, by simpa using h.symm⟩

/-- What a step can do: the block moves, or the first move of the agenda happens. -/
theorem step_cases {s t : State} (h : step s = .next t) :
    (s.agenda = [] ∧ t = s.blockMove) ∨
    (∃ m rest, s.agenda = m :: rest ∧ (s.withAgenda rest).move m = .next t) := by
  unfold step State.nextMove at h
  split at h
  · next ha => exact .inl ⟨ha, by simpa using h.symm⟩
  · next m rest ha => exact .inr ⟨m, rest, ha, h⟩

end Sys2Proof.Machine
end

