-- ==== Sys2Proof/Laws/PerInstr.lean ====
section
/-! SUPPORT. The family of statements made for every constructor of `Instr`: the legal bytes of
30_encoding.md R86. -/

namespace Sys2Proof.Laws.LegalByte

/-- A command is well formed exactly when its byte is one of the 17 legal ones (30_encoding.md R86). -/
def Statement (i : Instr) : Prop :=
  i.wf = true ↔
    encode i ∈ [0x01#8, 0x11, 0x02, 0x12, 0x03, 0x13, 0x04, 0x05, 0x06, 0x07, 0x08, 0x18, 0x09, 0x29,
      0x49, 0x69, 0x89]

theorem xfer (m : Mode) : Statement (.xfer m) := by unfold Statement; cases m <;> decide

theorem setdir (d : Dir) : Statement (.setdir d) := by unfold Statement; cases d <;> decide

theorem setattn (level : Bool) : Statement (.setattn level) := by
  unfold Statement; cases level <;> decide

theorem ctrl : Statement .ctrl := by unfold Statement; decide

theorem mon : Statement .mon := by unfold Statement; decide

theorem monQ : Statement .monQ := by unfold Statement; decide

theorem monRetry : Statement .monRetry := by unfold Statement; decide

theorem fwd (entry : FwdEntry) : Statement (.fwd entry) := by unfold Statement; cases entry <;> decide

theorem diagRd (sel : BitVec 3) : Statement (.diagRd sel) := by
  unfold Statement; revert sel; decide

end Sys2Proof.Laws.LegalByte
end

