-- ==== Sys2Proof/Tests/Slice0.lean ====
section
/-! SUPPORT. Tests: the well-formedness smoke test, command bytes written out from 30_encoding.md R81 and
R82, one-step vectors of 95_test_vectors.md, the worked texts of R98 and R99, and for every obligation
with hypotheses a concrete state and operands that meet them. -/

namespace Sys2Proof.Tests

open Sys2Proof.Machine

/-! ### States -/

/-- A build with the ceiling `n + 1` and the default parameters (00_scope.md R5). -/
def ceiling (n : Fin 65535) : Build := { ceilPred := n, ackOnTimeout := true, snapshot := .linesLink }

/-- The reset state with `CEIL = 100`, as 95_test_vectors.md takes it. -/
def hundred : State := { State.reset with build := ceiling 99 }

/-- The reset state with `CEIL = 2`. -/
def small : State := { State.reset with build := ceiling 1 }

/-- A state of a running command with `CEIL = 2` and the countdown just loaded. -/
def running (i : Instr) (place : Seq) : State :=
  { small with
    cmd := encode i, status := Status.accepted, attn := true, dir := modeDir place.mode
    seq := place, tmr := 2 }

/-- The same in the attempt `n` of a Monitor transaction. -/
def attempt (i : Instr) (place : Seq) (quiet : Bool) (n : Byte) : State :=
  { running i place with q := quiet, attempts := n }

/-- The state that an outcome answers, and `s` itself where it answers none. -/
def stateOf (s : State) : Host.Outcome State Fault Refusal → State
  | .next t => t
  | .fault _ => s
  | .refused _ => s

/-! ### Well-formedness -/

/-- DIAG_RD with `SEL` 5 is ill formed (R83). -/
theorem test_wf_diag_select : (Instr.diagRd 5).wf = false ∧ (Instr.diagRd 4).wf = true := by decide

/-- A reserved offset has no register name (R98). -/
theorem test_wf_reserved_name :
    (AsmLine.rd (.reservedLow 0)).wf = false ∧ (AsmLine.wr (.reservedMid 3) 1).wf = false ∧
      (AsmLine.rd (.reservedHigh 37)).wf = false ∧ (AsmLine.rd .lines).wf = true := by decide

/-- `diag` takes 0..4 (R99). -/
theorem test_wf_diag_line : (AsmLine.diag 7).wf = false ∧ (AsmLine.diag 0).wf = true := by decide

/-- `ldmsg` gives at most `len` bytes (R99), and no byte without a register. -/
theorem test_wf_ldmsg :
    (AsmLine.ldmsg true 0 1 [1, 2]).wf = false ∧
      (AsmLine.ldmsg true 0 9 [1, 2, 3, 4, 5, 6, 7, 8, 9]).wf = false ∧
      (AsmLine.ldmsg false 0 2 [1, 2]).wf = true := by decide

/-! ### Decoding: bytes written out as `SEL` `M` `OP` (R81, R82) -/

theorem test_decode_xfer :
    decode 0b000_0_0001 = .ok (.xfer .write) ∧ decode 0b000_1_0001 = .ok (.xfer .read) := by decide

theorem test_decode_setdir :
    decode 0b000_0_0010 = .ok (.setdir .drive) ∧ decode 0b000_1_0010 = .ok (.setdir .sense) := by
  decide

theorem test_decode_setattn :
    decode 0b000_0_0011 = .ok (.setattn false) ∧ decode 0b000_1_0011 = .ok (.setattn true) := by
  decide

theorem test_decode_transactions :
    decode 0b000_0_0100 = .ok .ctrl ∧ decode 0b000_0_0101 = .ok .mon ∧
      decode 0b000_0_0110 = .ok .monQ ∧ decode 0b000_0_0111 = .ok .monRetry := by decide

theorem test_decode_fwd :
    decode 0b000_0_1000 = .ok (.fwd .monitorForward) ∧
      decode 0b000_1_1000 = .ok (.fwd .controlForward) := by decide

theorem test_decode_diagRd :
    decode 0b000_0_1001 = .ok (.diagRd 0) ∧ decode 0b001_0_1001 = .ok (.diagRd 1) ∧
      decode 0b010_0_1001 = .ok (.diagRd 2) ∧ decode 0b011_0_1001 = .ok (.diagRd 3) ∧
      decode 0b100_0_1001 = .ok (.diagRd 4) := by decide

/-- The error bytes of vectors V50 to V56, and `OP = 0` with every other bit set. -/
theorem test_decode_rejects :
    decode 0x00 = .error .illegalOp ∧ decode 0x0A = .error .illegalOp ∧
      decode 0xFF = .error .illegalOp ∧ decode 0xF0 = .error .illegalOp ∧
      decode 0x21 = .error .reservedField ∧ decode 0x14 = .error .reservedField ∧
      decode 0x28 = .error .reservedField ∧ decode 0x19 = .error .reservedField ∧
      decode 0xF9 = .error .reservedField := by decide

set_option maxRecDepth 8000 in
/-- The count below 95_test_vectors.md V61: 17 legal bytes of 256. -/
theorem test_decode_counts :
    ((List.range 256).countP fun n =>
      match decode (BitVec.ofNat 8 n) with
      | .ok i => i.wf
      | .error _ => false) = 17 := by decide

theorem test_table_word :
    decodeTableWord 8 0x18 = some (.fwd .controlForward) ∧ decodeTableWord 8 0x0F = none := by decide

/-- `withFetchWord` runs the command as the next step: V12 from reset. -/
theorem test_fetch :
    (stateOf hundred (step (hundred.withFetchWord 8 0x12))).trace = [.dirSense] := by decide

/-! ### The window (20_memory.md R61, R67) -/

/-- The first and the last offset of each run of registers. -/
theorem test_window_offsets :
    WinReg.ofOffset 0x07 = .msgAddr 3 ∧ WinReg.ofOffset 0x0E = .xferT true ∧
      WinReg.ofOffset 0x0F = .xferT false ∧ WinReg.ofOffset 0x17 = .msgBuf 7 ∧
      WinReg.ofOffset 0x19 = .ceil false ∧ WinReg.ofOffset 0x1F = .reservedLow 5 ∧
      WinReg.ofOffset 0x3A = .monT 13 true ∧ WinReg.ofOffset 0x3B = .monT 13 false ∧
      WinReg.ofOffset 0x49 = .ctlT 4 false ∧ WinReg.ofOffset 0x59 = .ctlT 12 false ∧
      WinReg.ofOffset 0x7F = .reservedHigh 37 := by decide

/-- `CEIL = 0x0064` reads big-endian, and `MSG_ADDR` reads its low byte at the lowest offset. -/
theorem test_window_bytes :
    hundred.windowByte false 0x18 = 0x00 ∧ hundred.windowByte false 0x19 = 0x64 ∧
      { hundred with msgAddr := 0x00012345 }.windowByte false 0x04 = 0x45 ∧
      { hundred with msgAddr := 0x00012345 }.windowByte false 0x06 = 0x01 := by decide

/-- The rows of R61 for the timers: high byte at the even offset. -/
theorem test_window_timers :
    let s := { hundred with
      monT := hundred.monT.set 13 0x1234, ctlT := hundred.ctlT.set 12 0x5678, xferT := 0x9ABC }
    s.windowByte false 0x3A = 0x12 ∧ s.windowByte false 0x3B = 0x34 ∧
      s.windowByte false 0x58 = 0x56 ∧ s.windowByte false 0x59 = 0x78 ∧
      s.windowByte false 0x0E = 0x9A ∧ s.windowByte false 0x0F = 0xBC := by decide

/-- `LINES` with `DIR = sense` and STROBE high, and with `ATTN = 1` (V12, V12c). -/
theorem test_window_lines :
    { hundred with dir := .sense }.windowByte true 0x0D = 0x06 ∧
      { hundred with attn := true }.windowByte false 0x0D = 0x01 := by decide

/-- V45's `wr LINK, 1`, and the ignored write of 3 (10_state.md R33). -/
theorem test_window_link :
    (stateOf hundred (step { hundred with agenda := [.write 0x0C 1 1] })).link = .ready ∧
      (stateOf hundred (step { hundred with agenda := [.write 0x0C 1 0xFF] })).link = .notReady := by
  decide

/-- The names of the `STATUS` values (60_exceptions.md R223). -/
theorem test_status_bytes :
    statusSuccess.byte = 0x06 ∧ statusTimeout.byte = 0xCA ∧ Status.accepted.byte = 0x01 ∧
      (Status.rejected .illegalOp).byte = 0x22 ∧ (Status.rejected .reservedField).byte = 0x42 ∧
      (Status.rejected .badSelect).byte = 0x62 ∧ (Status.rejected .lineState).byte = 0x82 ∧
      (Status.rejected .malformedLength).byte = 0xA2 ∧
      { statusSuccess with timeout := true }.byte = 0x0E ∧
      ({ statusTimeout with ecode := .protocolViolation } : Status).byte = 0xEA := by decide

/-! ### The commands, one step each -/

/-- V1, the poll that ends it. -/
theorem test_xfer_write :
    let t := { hundred with
      status := Status.accepted, seq := .xfer .write, tmr := 100, cmdArg := 0x5A
      strobes := [true] }.blockMove
    t.trace = [.poll true, .drive 0x5A, .ackPulse] ∧ t.xferT = 0x0064 ∧ t.status.byte = 0x06 := by
  decide

/-- V7 with the last poll of V4's countdown: a read that times out captures the lines. -/
theorem test_xfer_read_timeout :
    let t := { hundred with
      status := Status.accepted, seq := .xfer .read, dir := .sense, tmr := 1
      strobes := [false], dins := [0xC3] }.blockMove
    t.trace = [.poll false, .sense 0xC3, .ackPulse] ∧ t.xferData = 0xC3 ∧ t.xferT = 0 ∧
      t.status.byte = 0xCA := by decide

/-- V12 and V12b. -/
theorem test_setdir :
    (stateOf hundred (exec (.setdir .sense) hundred)).dir = .sense ∧
      (stateOf hundred (exec (.setdir .drive) hundred)).trace = [.dirDrive] := by decide

/-- V12c. -/
theorem test_setattn :
    let t := stateOf hundred (exec (.setattn true) hundred)
    t.attn = true ∧ t.trace = [.attnOn] ∧ t.status.byte = 0x06 := by decide

/-- V12d. -/
theorem test_ctrl_line_state :
    (stateOf hundred (exec .ctrl { hundred with attn := true })).status.byte = 0x82 := by decide

/-- The last step of V16: the first phase times out, attention goes off, `0xCA`. -/
theorem test_ctrl_abort :
    let t := { hundred with
      status := Status.accepted, seq := .control .ctrl (.addr 0), tmr := 1, attn := true
      la := 0x00012345, ll := 2, strobes := [false] }.blockMove
    t.trace = [.poll false, .drive 0x45, .ackPulse, .attnOff] ∧ t.status.byte = 0xCA ∧
      t.seq = .idle := by decide

/-- The last step of V21. -/
theorem test_mon_protocol_violation :
    let t := { hundred with
      status := Status.accepted, seq := .monitor .mon .rsl, tmr := 100, attn := true, dir := .sense
      attempts := 1, strobes := [true], dins := [9] }.blockMove
    t.trace = [.poll true, .sense 9, .ackPulse, .dirDrive, .attnOff] ∧ t.rlen = 9 ∧
      t.msgDir = .control ∧ t.status.byte = 0xE2 := by decide

/-- V57: `LINE_STATE` before `MALFORMED_LENGTH`. -/
theorem test_mon_priority :
    (stateOf hundred (exec .mon { hundred with attn := true, msgLen := 9 })).status.byte = 0x82 := by
  decide

/-- The last step of V30: the quiet variant leaves the message. -/
theorem test_monQ_quiet :
    let t := { hundred with
      status := Status.accepted, seq := .monitor .monQ .rsl, q := true, tmr := 100, attn := true
      dir := .sense, attempts := 1, strobes := [true], dins := [9] }.blockMove
    t.msgLen = 0 ∧ t.rlen = 9 ∧ t.msgDir = .monitor ∧ t.status.byte = 0xE2 := by decide

/-- The middle step of V33: the failed first attempt is followed by the second one. -/
theorem test_monRetry_second_attempt :
    let t := { hundred with
      status := Status.accepted, seq := .monitor .monRetry (.addr 0), q := true, tmr := 1
      attn := true, attempts := 1, la := 0x00012345, strobes := [false] }.blockMove
    t.trace = [.poll false, .drive 0x45, .ackPulse, .attnOff, .attnOn] ∧ t.attempts = 2 ∧
      t.seq = .monitor .monRetry (.addr 0) ∧ t.msgDir = .monitor := by decide

/-- The start of V36 and of V37: the message's direction chooses, not the entry. -/
theorem test_fwd_cross :
    (stateOf hundred (exec (.fwd .controlForward) hundred)).seq =
        .monitor (.fwd .controlForward) (.addr 0) ∧
      (stateOf hundred (exec (.fwd .monitorForward) { hundred with msgDir := .control })).seq =
        .control (.fwd .monitorForward) (.addr 0) := by decide

/-- V43. -/
theorem test_diagRd_timers :
    (stateOf hundred (exec (.diagRd 2) { hundred with
      ctlT := #v[0x64, 0x5A, 0x50, 0x46, 0x3C, 0x32, 0x28, 0, 0, 0, 0, 0, 0] })).msgBuf =
      #v[0x00, 0x64, 0x00, 0x5A, 0x00, 0x50, 0x00, 0x46] := by decide

/-- V46. -/
theorem test_diagRd_snapshot :
    let t := stateOf hundred (exec (.diagRd 4) { hundred with
      dir := .sense, link := .initialized, strobes := [true] })
    t.msgBuf = #v[0x06, 0x02, 0, 0, 0, 0, 0, 0] ∧ t.msgLen = 2 ∧ t.trace = [] := by decide

/-- V61. -/
theorem test_busy_write :
    let s := { running (.xfer .write) (.xfer .write) with agenda := [.write 0x00 1 0x02] }
    (stateOf s (step s)).refused = true ∧ (stateOf s (step s)).status.byte = 0x01 := by decide

/-- A reset during a command (70_reset_and_hazards.md R252). -/
theorem test_reset_in_command :
    let s := { running .ctrl (.control .ctrl .len) with agenda := [.reset] }
    (stateOf s (step s)).trace = [.reset] ∧ (stateOf s (step s)).attn = false := by decide

/-! ### Payloads and the assembler -/

/-- E1. -/
theorem test_range_reply :
    rangeReply 0x00020002 0x00020FFF = [0x02, 0x00, 0x02, 0x00, 0xFF, 0x0F, 0x02, 0x00] := by decide

/-- The first line of P1 and its encoding. -/
theorem test_assemble_ldmsg :
    assembleLine "ldmsg ctl, 0x00012345, 2, 0xAA, 0xBB".toList =
      some [.write 0x08 1 0x01, .write 0x04 1 0x45, .write 0x05 1 0x23, .write 0x06 1 0x01,
        .write 0x07 1 0x00, .write 0x09 1 0x02, .write 0x10 1 0xAA, .write 0x11 1 0xBB] := by decide

/-- Lines of P1 to P3 and their encodings. -/
theorem test_assemble_lines :
    assembleLine "rd CTL_T4.L".toList = some [.read 0x49 1] ∧
      assembleLine "diag 1 ; second reply".toList = some [.write 0x00 1 0x29] ∧
      assembleLine "xfer.w 0x45".toList = some [.write 0x01 1 0x45, .write 0x00 1 0x01] ∧
      assembleLine "setdir sense".toList = some [.write 0x00 1 0x12] := by decide

/-- A line that is not of the form R98 and R99 give is no line. -/
theorem test_assemble_refuses :
    assembleLine "diag 5".toList = none ∧ assembleLine "wr CMD, 256".toList = none ∧
      assembleLine "ldmsg mon, 0, 0, 1".toList = none := by decide

/-! ### Witnesses: the command byte and the window -/

/-- For `EncodeOfDecode`. -/
theorem test_witness_encodeOfDecode :
    decode 0x01 = .ok (.xfer .write) ∧ decode 0xE9 = .ok (.diagRd 7) := by decide

/-- One byte at a boundary of each clause of `IllegalBytesAreRejected`, written to an idle block. -/
theorem test_witness_illegalBytes :
    small.status.busy = false ∧
      { small with agenda := [.write 0x00 1 0x0A] }.agenda = .write 0x00 1 0x0A :: [] ∧
      ((0x10#8).extractLsb' 0 4).toNat = 0 ∧ 10 ≤ ((0x0A#8).extractLsb' 0 4).toNat ∧
      ((0x28#8).extractLsb' 0 4).toNat = 8 ∧ ((0x28#8).extractLsb' 5 3).toNat ≠ 0 ∧
      ((0x14#8).extractLsb' 0 4).toNat = 4 ∧ (0x14#8).getLsbD 4 = true ∧
      ((0x19#8).extractLsb' 0 4).toNat = 9 ∧ (0x19#8).getLsbD 4 = true ∧
      ((0xA9#8).extractLsb' 0 4).toNat = 9 ∧ (0xA9#8).getLsbD 4 = false ∧
      5 ≤ ((0xA9#8).extractLsb' 5 3).toNat := by decide

/-- For `StepRunsTheWrittenCommand`. -/
theorem test_witness_stepRuns :
    { small with agenda := [.write 0x00 1 0x05] }.agenda = .write 0x00 1 0x05 :: [] ∧
      decode 0x05 = .ok .mon := by decide

/-- For `StepMovesTheBlock` and `IdleBlockTakesNoStep`. -/
theorem test_witness_stepMoves :
    small.agenda = [] ∧ small.seq = .idle ∧ { small with agenda := [.block] }.agenda = .block :: [] := by
  decide

/-- A busy block with a client write, of `CMD` and of the last offset, and with a command.
For `BusyWritesAreRefused` and `BusyBlockRefusesEveryCommand`. -/
theorem test_witness_busyWrites :
    { running .ctrl (.control .ctrl .len) with agenda := [.write 0x00 1 0x12] }.status.busy = true ∧
      { running .ctrl (.control .ctrl .len) with agenda := [.write 0x7F 1 0] }.agenda =
        .write 0x7F 1 0 :: [] ∧
      (running .ctrl (.control .ctrl .len)).status.busy = true := by decide

/-- For `AccessOutsideTheWindowIsRefused`. -/
theorem test_witness_outsideTheWindow :
    (2 ≠ 1 ∨ 0x80 ≤ 0x00) ∧ (1 ≠ 1 ∨ 0x80 ≤ 0x80) ∧
      { small with agenda := [.write 0x80 1 0] }.agenda = .write 0x80 1 0 :: [] ∧
      { small with agenda := [.read 0x00 2] }.agenda = .read 0x00 2 :: [] := by decide

/-- An offset at the ends of every range of `ReservedAndReadOnlyOffsets`. -/
theorem test_witness_reservedOffsets :
    small.status.busy = false ∧ { small with agenda := [.read 0x1A 1] }.agenda = .read 0x1A 1 :: [] ∧
      (∀ off ∈ [0x1A, 0x1F, 0x3C, 0x3F, 0x5A, 0x7F],
        (0x1A ≤ off ∧ off < 0x20 ∨ 0x3C ≤ off ∧ off < 0x40 ∨ 0x5A ≤ off ∧ off < 0x80)) ∧
      { small with agenda := [.write 0x18 1 5] }.agenda = .write 0x18 1 5 :: [] ∧
      (∀ off ∈ [0x02, 0x03, 0x0A, 0x0B, 0x0D, 0x0F, 0x18, 0x7F],
        (off = 0x02 ∨ off = 0x03 ∨ off = 0x0A ∨ off = 0x0B ∨ 0x0D ≤ off ∧ off < 0x10 ∨
          0x18 ≤ off ∧ off < 0x80)) ∧
      { small with agenda := [.write 0x08 1 5] }.agenda = .write 0x08 1 5 :: [] ∧
      { small with agenda := [.write 0x0C 1 3] }.agenda = .write 0x0C 1 3 :: [] := by decide

/-- An offset at the ends of every range of `RegisterWritesStayInTheirByte`. -/
theorem test_witness_registerWrites :
    small.status.busy = false ∧
      { small with agenda := [.write 0x17 1 0xEE] }.agenda = .write 0x17 1 0xEE :: [] ∧
      (∀ off ∈ [0x01, 0x04, 0x09, 0x0C, 0x10, 0x17],
        (off = 0x01 ∨ 0x04 ≤ off ∧ off < 0x0A ∨ off = 0x0C ∨ 0x10 ≤ off ∧ off < 0x18)) := by decide

/-- For `ReadsHaveNoSideEffect`. -/
theorem test_witness_reads :
    small.status.busy = false ∧ 0x7F < 0x80 ∧ 0x7F ≠ 0x0D ∧
      { small with agenda := [.read 0x7F 1] }.agenda = .read 0x7F 1 :: [] ∧
      { small with agenda := [.read 0x0D 1], strobes := [true] }.agenda = .read 0x0D 1 :: [] ∧
      { small with agenda := [.read 0x0D 1], strobes := [true] }.strobes = true :: [] := by decide

/-- The offsets 0x19, 0x0D and 0x00, one for each clause of `ReadsWhileBusy`. -/
theorem test_witness_readsWhileBusy :
    (running .mon (.monitor .mon .rsl)).status.busy = true ∧
      { running .mon (.monitor .mon .rsl) with agenda := [.read 0x19 1] }.agenda =
        .read 0x19 1 :: [] ∧
      { running .mon (.monitor .mon .rsl) with agenda := [.read 0x0D 1], strobes := [false] }.agenda =
        .read 0x0D 1 :: [] ∧
      { running .mon (.monitor .mon .rsl) with agenda := [.read 0x0D 1], strobes := [false] }.strobes =
        false :: [] ∧
      { running .mon (.monitor .mon .rsl) with agenda := [.read 0x00 1] }.agenda =
        .read 0x00 1 :: [] := by decide

/-- `ldmsg` with no payload byte and with eight.
For `LdmsgLoadsTheMessage`. -/
theorem test_witness_ldmsg :
    { small with agenda := expandLine (.ldmsg false 5 0 []) }.status.busy = false ∧
      ([] : List Byte).length ≤ (0#8).toNat ∧
      ([1, 2, 3, 4, 5, 6, 7, 8] : List Byte).length ≤ 8 ∧
      ([1, 2, 3, 4, 5, 6, 7, 8] : List Byte).length ≤ (8#8).toNat ∧
      { small with agenda := expandLine (.ldmsg true 5 8 [1, 2, 3, 4, 5, 6, 7, 8]) }.agenda =
        expandLine (.ldmsg true 5 8 [1, 2, 3, 4, 5, 6, 7, 8]) := by decide

/-! ### Witnesses: the accepts -/

/-- Idle blocks with the lines at and off their default, and the live STROBE at hand.
For the statements about SETDIR, SETATTN and DIAG_RD, and `EveryCommandEnds`. -/
theorem test_witness_oneStepCommands :
    small.status.busy = false ∧ { small with dir := .sense }.status.busy = false ∧
      { small with dir := .sense }.dir = .sense ∧ { small with attn := true }.status.busy = false ∧
      { small with attn := true }.attn = true ∧ isTransaction (.fwd .controlForward) = true ∧
      { small with strobes := [true] }.strobes = true :: [] ∧ (4#3).toNat ≤ 4 ∧ (0#3).toNat ≠ 4 ∧
      (4#3).toNat = 4 ∧ small.build.snapshot = .linesLink := by decide

/-- A transaction may start with the longest message, of either direction.
For the starts, `RunsItsPseudocode` statements and `QuietDiffersByTheOverwrite`. -/
theorem test_witness_ready :
    TransactionReady { small with msgLen := 8, msgDir := .control } ∧
      { small with msgLen := 8, msgDir := .control }.msgDir = .control ∧
      TransactionReady { small with msgLen := 8 } ∧ { small with msgLen := 8 }.msgDir = .monitor :=
  ⟨⟨by decide, ⟨by decide, by decide⟩, by decide⟩, by decide,
    ⟨by decide, ⟨by decide, by decide⟩, by decide⟩, by decide⟩

/-- XFER with the direction its mode needs, and with the other one.
For `XferStartsItsPhase`, `XferRunsItsPseudocode` and `AcceptChecksInOrder`. -/
theorem test_witness_xfer :
    small.status.busy = false ∧ small.dir = modeDir .write ∧ small.dir ≠ modeDir .read ∧
      { small with dir := .sense }.dir = modeDir .read ∧ 4 < (5#3).toNat := by decide

/-- Both reasons for which a transaction is turned away.
For `RejectedUnlessReady`, in `AcceptChecksInOrder` and others. -/
theorem test_witness_notReady :
    ¬ LinesDefault { small with attn := true } ∧ ¬ LinesDefault { small with dir := .sense } ∧
      LinesDefault { small with msgLen := 9 } ∧ 8 < { small with msgLen := 9 }.msgLen.toNat :=
  ⟨fun h => absurd h.2 (by decide), fun h => absurd h.1 (by decide), ⟨by decide, by decide⟩,
    by decide⟩

/-- A step that rejects: V51.
For `RejectsArePrecise`. -/
theorem test_witness_reject :
    let s := { small with agenda := [.write 0x00 1 0x00] }
    let t := stateOf s (step s)
    s.status.busy = false ∧ s.agenda = .write 0x00 1 0x00 :: [] ∧ step s = .next t ∧
      t.status.busy = false ∧ t.status.ok = false := by
  refine ⟨by decide, by decide, rfl, by decide, by decide⟩

/-! ### Witnesses: the exchange -/

/-- A phase with `CEIL = 2`: the strobe at the last possible poll, no strobe, and one poll of two.
For `CountdownLaws`. -/
theorem test_witness_countdown :
    let s := running .ctrl (.control .ctrl .len)
    s.seq ≠ .idle ∧ s.tmr = s.ceil ∧ 1 < s.ceil.toNat ∧
      { s with strobes := [false, true] }.strobes = List.replicate 1 false ++ true :: [] ∧
      { s with strobes := [false, false] }.strobes = List.replicate s.ceil.toNat false ++ [] ∧
      { s with strobes := [false] }.strobes = List.replicate 1 false ++ [] ∧ 1 ≤ 1 := by decide

/-- The ends of a phase: a timeout with and without the leg, a write, and a read.
For `DataLegAndAckPulse`. -/
theorem test_witness_dataLeg :
    let w := running .ctrl (.control .ctrl .len)
    let r := running .mon (.monitor .mon .rsl)
    { w with tmr := 0, build := { ceiling 1 with ackOnTimeout := false } }.tmr = 0 ∧
      { w with tmr := 0, build := { ceiling 1 with ackOnTimeout := false } }.build.ackOnTimeout =
        false ∧
      w.tmr ≠ 0 ∧ w.seq.mode = .write ∧ { r with tmr := 0 }.build.ackOnTimeout = true ∧
      r.seq.mode = .read ∧ { r with dins := [7] }.dins = 7 :: [] := by decide

/-! ### Witnesses: whole commands -/

/-- A Control frame of one payload byte, every wait below `CEIL = 2`.
For `ControlTransmitsItsFrame`. -/
theorem test_witness_controlFrame :
    let s := { small with
      msgLen := 1, msgDir := .control, strobes := strobesAfter [0, 1, 0, 0, 1, 0] ++ [true] }
    TransactionReady s ∧ runsControl (.fwd .controlForward) s.msgDir = true ∧
      runsControl .ctrl s.msgDir = true ∧ [0, 1, 0, 0, 1, 0].length = 5 + s.msgLen.toNat ∧
      (∀ n ∈ [0, 1, 0, 0, 1, 0], n < s.ceil.toNat) ∧
      s.strobes = strobesAfter [0, 1, 0, 0, 1, 0] ++ [true] :=
  ⟨⟨by decide, ⟨by decide, by decide⟩, by decide⟩, by decide, by decide, by decide, by decide, rfl⟩

/-- A Monitor reply of one byte.
For `MonitorDeliversTheReply`. -/
theorem test_witness_monitorReply :
    let s := { small with
      strobes := strobesAfter [0, 1, 0, 0, 1, 0, 0] ++ [true], dins := [1, 0x5C, 0xEE] }
    TransactionReady s ∧ runsMonitor .mon s.msgDir = true ∧
      runsMonitor (.fwd .controlForward) s.msgDir = true ∧ ([0x5C#8]).length ≤ 8 ∧
      [0, 1, 0, 0, 1, 0, 0].length = 6 + ([0x5C#8]).length ∧
      (∀ n ∈ [0, 1, 0, 0, 1, 0, 0], n < s.ceil.toNat) ∧
      s.strobes = strobesAfter [0, 1, 0, 0, 1, 0, 0] ++ [true] ∧
      s.dins = BitVec.ofNat 8 ([0x5C#8]).length :: [0x5C#8] ++ [0xEE] :=
  ⟨⟨by decide, ⟨by decide, by decide⟩, by decide⟩, by decide, by decide, by decide, by decide,
    by decide, rfl, rfl⟩

/-- A first phase without a strobe.
For `FirstPhaseTimeoutAborts`. -/
theorem test_witness_firstPhase :
    let s := { small with strobes := [false, false, true] }
    TransactionReady s ∧ s.strobes = List.replicate s.ceil.toNat false ++ [true] :=
  ⟨⟨by decide, ⟨by decide, by decide⟩, by decide⟩, by decide⟩

/-- A failed first attempt, then an empty reply.
For `RetrySucceedsAfterOneFailure`. -/
theorem test_witness_retry :
    let s := { small with
      strobes := [false, false] ++ strobesAfter [0, 1, 0, 0, 1, 0] ++ [true], dins := [0, 0xEE] }
    TransactionReady s ∧ s.msgDir = .monitor ∧ ([] : List Byte).length ≤ 8 ∧
      [0, 1, 0, 0, 1, 0].length = 6 + ([] : List Byte).length ∧
      (∀ n ∈ [0, 1, 0, 0, 1, 0], n < s.ceil.toNat) ∧
      s.strobes =
        List.replicate s.ceil.toNat false ++ strobesAfter [0, 1, 0, 0, 1, 0] ++ [true] ∧
      s.dins = BitVec.ofNat 8 ([] : List Byte).length :: [] ++ [0xEE] :=
  ⟨⟨by decide, ⟨by decide, by decide⟩, by decide⟩, by decide, by decide, by decide, by decide,
    by decide, rfl⟩

/-! ### Witnesses: the invariant -/

/-- The invariant of a state from fewer facts, for the witnesses below. -/
theorem inv_of_running {s : State} {i : Instr} (hs : s.seq.command = some i) (hc : s.cmd = encode i)
    (hst : s.status = Status.accepted) (hn : s.seq ≠ .idle) (hack : s.ack = false)
    (ht : 1 ≤ s.tmr.toNat ∧ s.tmr.toNat ≤ s.ceil.toNat)
    (hm : ∀ k : Fin 14, s.monT[k].toNat ≤ s.ceil.toNat)
    (hk : ∀ k : Fin 13, s.ctlT[k].toNat ≤ s.ceil.toNat) (hx : s.xferT.toNat ≤ s.ceil.toNat)
    (ha : s.attempts.toNat ≤ 2) (hp : PlaceOk s) : Inv s where
  ack_low := hack
  busy_iff := by simp [hst, Status.accepted, hn]
  busy_fields := by simp [hst, Status.accepted]
  ok_code := by simp [hst, Status.accepted]
  timeout_flag := by simp [hst, Status.accepted]
  violation_length := by simp [hst, Status.accepted]
  command_held := by
    intro j hj
    rw [hs] at hj
    cases hj
    exact hc
  countdown := fun _ => ht
  monitor_slots := hm
  control_slots := hk
  xfer_slot := hx
  attempts_le := ha
  place := hp

/-- A Control transaction in its length phase, with no payload to come and the strobe at hand. -/
def atControlEnd : State := { running .ctrl (.control .ctrl .len) with strobes := [true] }

/-- A Monitor transaction in its response-length phase, about to receive the byte `n`. -/
def atReply (i : Instr) (c : MonCmd) (quiet : Bool) (n : Byte) : State :=
  { attempt i (.monitor c .rsl) quiet 1 with strobes := [true], dins := [n] }

/-- A Monitor transaction at the last failed poll of its first phase. -/
def atAbort (i : Instr) (c : MonCmd) (quiet : Bool) (n : Byte) : State :=
  { attempt i (.monitor c (.addr 0)) quiet n with tmr := 1, strobes := [false] }

theorem inv_atControlEnd : Inv atControlEnd :=
  inv_of_running (i := .ctrl) rfl rfl rfl (by decide) rfl (by decide) (by decide) (by decide)
    (by decide) (by decide) ⟨rfl, rfl, by decide, rfl, fun _ h => by cases h⟩

theorem inv_atReply_empty : Inv (atReply .mon .mon false 0) :=
  inv_of_running (i := .mon) rfl rfl rfl (by decide) rfl (by decide) (by decide) (by decide)
    (by decide) (by decide) ⟨rfl, rfl, by decide, rfl, ⟨rfl, rfl⟩, fun _ h => by cases h⟩

theorem inv_atReply_long : Inv (atReply .mon .mon false 9) :=
  inv_of_running (i := .mon) rfl rfl rfl (by decide) rfl (by decide) (by decide) (by decide)
    (by decide) (by decide) ⟨rfl, rfl, by decide, rfl, ⟨rfl, rfl⟩, fun _ h => by cases h⟩

theorem inv_atReply_quiet : Inv (atReply .monQ .monQ true 9) :=
  inv_of_running (i := .monQ) rfl rfl rfl (by decide) rfl (by decide) (by decide) (by decide)
    (by decide) (by decide) ⟨rfl, rfl, by decide, rfl, ⟨rfl, rfl⟩, fun _ h => by cases h⟩

theorem inv_atAbort_first : Inv (atAbort .monRetry .monRetry true 1) :=
  inv_of_running (i := .monRetry) rfl rfl rfl (by decide) rfl (by decide) (by decide) (by decide)
    (by decide) (by decide) ⟨rfl, rfl, by decide, rfl, .inl ⟨rfl, rfl⟩, fun _ h => by cases h⟩

theorem inv_atAbort_second : Inv (atAbort .monRetry .monRetry false 2) :=
  inv_of_running (i := .monRetry) rfl rfl rfl (by decide) rfl (by decide) (by decide) (by decide)
    (by decide) (by decide) ⟨rfl, rfl, by decide, rfl, .inr ⟨rfl, rfl⟩, fun _ h => by cases h⟩

theorem inv_atReply_retry : Inv (atReply .monRetry .monRetry true 0) :=
  inv_of_running (i := .monRetry) rfl rfl rfl (by decide) rfl (by decide) (by decide) (by decide)
    (by decide) (by decide) ⟨rfl, rfl, by decide, rfl, .inl ⟨rfl, rfl⟩, fun _ h => by cases h⟩

/-- Transactions of both kinds about to end.
For `LinesRestoredOnEveryExit`. -/
theorem test_witness_linesRestored :
    (Inv atControlEnd ∧ (∀ m, atControlEnd.seq ≠ .xfer m) ∧ atControlEnd.seq ≠ .idle ∧
      atControlEnd.blockMove.seq = .idle) ∧
    (Inv (atReply .mon .mon false 9) ∧ (∀ m, (atReply .mon .mon false 9).seq ≠ .xfer m) ∧
      (atReply .mon .mon false 9).seq ≠ .idle ∧
      (atReply .mon .mon false 9).blockMove.seq = .idle) :=
  ⟨⟨inv_atControlEnd, (fun m h => by cases h), by decide, by decide⟩,
    inv_atReply_long, (fun m h => by cases h), by decide, by decide⟩

/-- A success, a failure that overwrites the message, and a failure of a quiet transaction.
For `MonitorOutcomes`. -/
theorem test_witness_monitorOutcomes :
    (Inv (atReply .mon .mon false 0) ∧ (atReply .mon .mon false 0).seq = .monitor .mon .rsl ∧
      (atReply .mon .mon false 0).blockMove.seq = .idle ∧
      (atReply .mon .mon false 0).blockMove.status.ok = true) ∧
    (Inv (atReply .mon .mon false 9) ∧ (atReply .mon .mon false 9).seq = .monitor .mon .rsl ∧
      (atReply .mon .mon false 9).blockMove.seq = .idle ∧
      (atReply .mon .mon false 9).blockMove.status.ok = false ∧
      (atReply .mon .mon false 9).q = false) ∧
    (Inv (atReply .monQ .monQ true 9) ∧ (atReply .monQ .monQ true 9).seq = .monitor .monQ .rsl ∧
      (atReply .monQ .monQ true 9).blockMove.seq = .idle ∧
      (atReply .monQ .monQ true 9).blockMove.status.ok = false ∧
      (atReply .monQ .monQ true 9).q = true) :=
  ⟨⟨inv_atReply_empty, by decide, by decide, by decide⟩,
    ⟨inv_atReply_long, by decide, by decide, by decide, by decide⟩,
    inv_atReply_quiet, by decide, by decide, by decide, by decide⟩

/-- The shortest response length that is too long.
For `LongResponseIsAProtocolViolation`. -/
theorem test_witness_longResponse :
    Inv (atReply .mon .mon false 9) ∧ (atReply .mon .mon false 9).seq = .monitor .mon .rsl ∧
      (atReply .mon .mon false 9).strobes = true :: [] ∧
      (atReply .mon .mon false 9).dins = 9 :: [] ∧ 8 < (9#8).toNat :=
  ⟨inv_atReply_long, by decide, by decide, by decide, by decide⟩

/-- The failed first attempt, which begins the second; the failed second one; MON; and a first attempt
that succeeds.
For `AtMostOneRetry`. -/
theorem test_witness_retryLaw :
    (Inv (atAbort .monRetry .monRetry true 1) ∧
      (atAbort .monRetry .monRetry true 1).seq = .monitor .monRetry (.addr 0) ∧
      (atAbort .monRetry .monRetry true 1).blockMove.attempts ≠
        (atAbort .monRetry .monRetry true 1).attempts) ∧
    (Inv (atAbort .monRetry .monRetry false 2) ∧
      (atAbort .monRetry .monRetry false 2).blockMove.seq = .idle ∧
      (atAbort .monRetry .monRetry false 2).blockMove.status.ok = false ∧
      MonCmd.monRetry.retries = true) ∧
    (Inv (atReply .mon .mon false 0) ∧ (atReply .mon .mon false 0).blockMove.seq = .idle ∧
      MonCmd.mon.retries = false) ∧
    (Inv (atReply .monRetry .monRetry true 0) ∧
      (atReply .monRetry .monRetry true 0).blockMove.seq = .idle ∧
      (atReply .monRetry .monRetry true 0).blockMove.status.ok = true ∧
      (atReply .monRetry .monRetry true 0).attempts = 1) :=
  ⟨⟨inv_atAbort_first, by decide, by decide⟩,
    ⟨inv_atAbort_second, by decide, by decide, by decide⟩,
    ⟨inv_atReply_empty, by decide, by decide⟩, inv_atReply_retry, by decide, by decide, by decide⟩

/-- A Control transaction at the last failed poll of its first phase. -/
def atControlAbort : State :=
  { running .ctrl (.control .ctrl (.addr 0)) with tmr := 1, strobes := [false] }

theorem inv_atControlAbort : Inv atControlAbort :=
  inv_of_running (i := .ctrl) rfl rfl rfl (by decide) rfl (by decide) (by decide) (by decide)
    (by decide) (by decide) ⟨rfl, rfl, by decide, rfl, fun _ h => by cases h⟩

/-- A failure for each clause of `FailingPhaseIsInTheZeroTail`, the first at the lowest slot. -/
theorem test_witness_zeroTail :
    (Inv (atAbort .monRetry .monRetry false 2) ∧
      SlotsAheadZero (atAbort .monRetry .monRetry false 2) ∧
      (atAbort .monRetry .monRetry false 2).blockMove.seq = .idle ∧
      (atAbort .monRetry .monRetry false 2).blockMove.status = statusTimeout) ∧
    (Inv (atReply .mon .mon false 9) ∧ SlotsAheadZero (atReply .mon .mon false 9) ∧
      (atReply .mon .mon false 9).blockMove.seq = .idle ∧
      (atReply .mon .mon false 9).blockMove.status.ok = false ∧
      (atReply .mon .mon false 9).blockMove.status.ecode = .protocolViolation) ∧
    (Inv atControlAbort ∧ SlotsAheadZero atControlAbort ∧ atControlAbort.blockMove.seq = .idle ∧
      atControlAbort.blockMove.status.ok = false) :=
  ⟨⟨inv_atAbort_second, (by decide : ∀ k : Fin 14, 0 ≤ k.val → _), by decide, by decide⟩,
    ⟨inv_atReply_long, (by decide : ∀ k : Fin 14, 5 ≤ k.val → _), by decide, by decide, by decide⟩,
    inv_atControlAbort, (by decide : ∀ k : Fin 13, 0 ≤ k.val → _), by decide, by decide⟩

/-- An XFER at its last poll. -/
def atXferEnd : State := { running (.xfer .write) (.xfer .write) with strobes := [true] }

/-- A step that changes each timer record. For `TimerArraysAreIndependent` and
`ControlKeepsTheMessage`. -/
theorem test_witness_kinds :
    (atControlEnd.seq = .control .ctrl .len ∧
      step atControlEnd = .next (stateOf atControlEnd (step atControlEnd)) ∧
      (∀ rest, atControlEnd.agenda ≠ .reset :: rest) ∧
      (stateOf atControlEnd (step atControlEnd)).ctlT ≠ atControlEnd.ctlT) ∧
    (step (atReply .mon .mon false 0) = .next (atReply .mon .mon false 0).blockMove ∧
      (∀ rest, (atReply .mon .mon false 0).agenda ≠ .reset :: rest) ∧
      (atReply .mon .mon false 0).blockMove.monT ≠ (atReply .mon .mon false 0).monT) ∧
    (step atXferEnd = .next atXferEnd.blockMove ∧ (∀ rest, atXferEnd.agenda ≠ .reset :: rest) ∧
      atXferEnd.blockMove.xferT ≠ atXferEnd.xferT) :=
  ⟨⟨rfl, rfl, (fun _ h => by cases h), by decide⟩, ⟨rfl, (fun _ h => by cases h), by decide⟩,
    rfl, (fun _ h => by cases h), by decide⟩

/-! ### Witnesses: the whole machine -/

/-- A step from a state with the invariant, of a running command.
For `InvariantKeptByEveryStep`, `OneAckPulsePerDataLeg`, `TraceOnlyGrows`,
`RefusedIsNeverCleared` and `CeilIsHardwired`. -/
theorem test_witness_step :
    Inv atControlEnd ∧ step atControlEnd = .next (stateOf atControlEnd (step atControlEnd)) ∧
      { small with refused := true }.refused = true ∧
      step { small with refused := true } = .next { small with refused := true } :=
  ⟨inv_atControlEnd, rfl, rfl, rfl⟩

/-- Two states that differ in hidden registers, idle and inside a Control transaction.
For `HiddenRegistersAreUnobservable`. -/
theorem test_witness_hidden :
    (SameVisible small { small with tmr := 7, la := 1, ll := 9, q := true, tof := true } ∧
      small ≠ { small with tmr := 7, la := 1, ll := 9, q := true, tof := true }) ∧
    (SameVisible atControlEnd { atControlEnd with q := true, tof := true } ∧
      step atControlEnd = .next (stateOf atControlEnd (step atControlEnd))) :=
  ⟨⟨⟨rfl, trivial⟩, by decide⟩, ⟨rfl, rfl, rfl, rfl⟩, rfl⟩

/-- The ends of the admitted ceilings: 1 and 0xFFFF are admitted, 0 and 0x10000 are not.
For `CeilZeroIsNotAdmitted`. -/
theorem test_witness_ceilings :
    Build.ofParameters 0 true .linesLink = none ∧ Build.ofParameters 0x10000 true .linesLink = none ∧
      Build.ofParameters 1 true .linesLink = some (ceiling 0) ∧
      Build.ofParameters 0xFFFF true .linesLink = some (ceiling 65534) := by decide

/-- A reset in the middle of a transaction.
For `ResetEventResetsEveryRegister`. -/
theorem test_witness_reset :
    { atControlEnd with agenda := [.reset, .block] }.agenda = .reset :: [.block] := by decide

/-- A client that waits for a running command, and one that waits for an ended one.
For `WaitEnds`. -/
theorem test_witness_wait :
    (Inv { atControlEnd with agenda := [.await] } ∧
      { atControlEnd with agenda := [.await] }.agenda = [.await] ∧
      { atControlEnd with agenda := [.await] }.seq ≠ .idle) ∧
    ({ small with status := statusSuccess, agenda := [.await] }.status.done = true ∧
      Inv { small with status := statusSuccess, agenda := [.await] }) :=
  ⟨⟨{ inv_atControlEnd with }, by decide, by decide⟩, by decide, {
    ack_low := rfl
    busy_iff := by decide
    busy_fields := by decide
    ok_code := by decide
    timeout_flag := by decide
    violation_length := by decide
    command_held := fun _ h => by cases h
    countdown := by decide
    monitor_slots := by decide
    control_slots := by decide
    xfer_slot := by decide
    attempts_le := by decide
    place := trivial }⟩

end Sys2Proof.Tests
end

/-! The build parameters and their register `CEIL` (00_scope.md R5, 10_state.md R35): one `build` lemma per
operation that is composed of the named updates, up to the step, and the two window bytes of `CEIL`. -/

namespace Sys2Proof.Machine

/-! ### The continuation of a phase leaves the build parameters alone -/

theorem State.endXfer_build (s : State) (ok : Bool) (v : Option Byte) :
    (s.endXfer ok v).build = s.build := by
  unfold State.endXfer
  split <;> simp

theorem State.afterControlPhase_build (s : State) (c : CtlCmd) (ph : CtlPhase) (ok : Bool) :
    (s.afterControlPhase c ph ok).build = s.build := by
  obtain ⟨-, -, h⟩ | ⟨ph', -, h⟩ | ⟨-, h⟩ := s.afterControlPhase_cases c ph ok <;> simp [h]

@[simp] theorem State.endMonitor_build (s : State) (c : MonCmd) (cause : ErrCode) :
    (s.endMonitor c cause).build = s.build := by
  obtain ⟨-, h⟩ | ⟨-, -, -, h⟩ | ⟨-, -, -, h⟩ | ⟨-, -, h⟩ := s.endMonitor_cases c cause <;> simp [h]

@[simp] theorem State.monitorEpilogue_build (s : State) (c : MonCmd) (cause : ErrCode) :
    (s.monitorEpilogue c cause).build = s.build := by
  simp [State.monitorEpilogue]

@[simp] theorem State.afterMonitorAddr_build (s : State) (c : MonCmd) (k : Fin 4) (ok : Bool) :
    (s.afterMonitorAddr c k ok).build = s.build := by
  unfold State.afterMonitorAddr
  split
  · simp
  · split <;> simp

@[simp] theorem State.afterRequestLength_build (s : State) (c : MonCmd) :
    (s.afterRequestLength c).build = s.build := by
  simp [State.afterRequestLength]

@[simp] theorem State.afterResponseLength_build (s : State) (c : MonCmd) (ok : Bool)
    (v : Option Byte) : (s.afterResponseLength c ok v).build = s.build := by
  simp only [State.afterResponseLength]
  split
  · simp
  · split
    · simp
    · split <;> simp

@[simp] theorem State.afterResponsePayload_build (s : State) (c : MonCmd) (i : Fin 8) (ok : Bool)
    (v : Option Byte) : (s.afterResponsePayload c i ok v).build = s.build := by
  simp only [State.afterResponsePayload]
  split
  · simp
  · split <;> simp

theorem State.afterMonitorPhase_build (s : State) (c : MonCmd) (ph : MonPhase) (ok : Bool)
    (v : Option Byte) : (s.afterMonitorPhase c ph ok v).build = s.build := by
  cases ph <;> simp [State.afterMonitorPhase]

theorem State.afterExchange_build (s : State) (ok : Bool) (v : Option Byte) :
    (s.afterExchange ok v).build = s.build := by
  unfold State.afterExchange
  split
  · rfl
  · exact s.endXfer_build ok v
  · exact s.afterControlPhase_build _ _ ok
  · exact s.afterMonitorPhase_build _ _ ok v

/-! ### The block's move and the commands leave the build parameters alone -/

@[simp] theorem State.endPhase_build (s : State) : s.endPhase.build = s.build := by
  simp [State.endPhase, State.afterExchange_build]

@[simp] theorem State.pollMove_build (s : State) : s.pollMove.build = s.build := by
  obtain ⟨-, -, h⟩ | ⟨-, h⟩ | ⟨-, -, h⟩ := s.pollMove_cases <;> simp [h]

@[simp] theorem State.blockMove_build (s : State) : s.blockMove.build = s.build := by
  by_cases h : s.seq = .idle
  · rw [s.blockMove_idle h]
  · rw [s.blockMove_running h, s.pollMove_build]

@[simp] theorem State.timerReply_build (s : State) (sel : BitVec 3) :
    (s.timerReply sel).build = s.build := rfl

@[simp] theorem State.snapshotReply_build (s : State) : s.snapshotReply.build = s.build :=
  s.strobeTaken_build

/-- An accept changes the build parameters no more than the command's rule does. -/
theorem State.accept_build {s t : State} {i : Instr} {check : Option ErrCode} {rule : State → State}
    (h : s.accept i check rule = .next t) (hrule : ∀ u, (rule u).build = u.build) :
    t.build = s.build := by
  obtain ⟨-, rfl⟩ | ⟨-, code, -, rfl⟩ | ⟨-, -, rfl⟩ := State.accept_cases h
  · simp
  · simp
  · rw [hrule, State.accepted_build]

theorem exec_build {s t : State} {i : Instr} (h : exec i s = .next t) : t.build = s.build := by
  cases i with
  | xfer m =>
    rw [exec_xfer] at h
    exact State.accept_build h fun u => by simp
  | setdir d =>
    rw [exec_setdir] at h
    exact State.accept_build h fun u => by cases d <;> simp
  | setattn level =>
    rw [exec_setattn] at h
    exact State.accept_build h fun u => by cases level <;> simp
  | ctrl =>
    rw [exec_ctrl] at h
    exact State.accept_build h fun u => by simp
  | mon =>
    rw [exec_mon] at h
    exact State.accept_build h fun u => by simp
  | monQ =>
    rw [exec_monQ] at h
    exact State.accept_build h fun u => by simp
  | monRetry =>
    rw [exec_monRetry] at h
    exact State.accept_build h fun u => by simp
  | fwd e =>
    cases hd : s.msgDir with
    | monitor =>
      rw [exec_fwd_monitor e s hd] at h
      exact State.accept_build h fun u => by simp
    | control =>
      rw [exec_fwd_control e s hd] at h
      exact State.accept_build h fun u => by simp
  | diagRd sel =>
    rw [exec_diagRd] at h
    exact State.accept_build h fun u => by split <;> simp

/-! ### The client's moves and the step leave the build parameters alone -/

theorem State.acceptIllegal_build (s : State) (c : Byte) (e : EncodingError) :
    (s.acceptIllegal c e).build = s.build := by
  unfold State.acceptIllegal
  split
  · simp
  · cases e <;> simp

theorem State.writeReg_build (s : State) (r : WinReg) (v : Byte) :
    (s.writeReg r v).build = s.build := by
  cases r <;> rfl

theorem State.clientRead_build (s : State) (off width : Nat) :
    (s.clientRead off width).build = s.build := by
  obtain ⟨-, h⟩ | ⟨-, h⟩ | ⟨-, h⟩ | ⟨-, h⟩ := s.clientRead_cases off width <;> simp [h]

theorem State.commandWrite_build {s t : State} {c : Byte} (h : s.commandWrite c = .next t) :
    t.build = s.build := by
  obtain ⟨i, -, hexec⟩ | ⟨e, -, rfl⟩ := State.commandWrite_cases h
  · exact exec_build hexec
  · exact s.acceptIllegal_build c e

theorem State.clientWrite_build {s t : State} {off width : Nat} {v : Byte}
    (h : s.clientWrite off width v = .next t) : t.build = s.build := by
  obtain rfl | ⟨-, hcmd⟩ | ⟨-, -, rfl⟩ := State.clientWrite_cases h
  · exact s.refuseAccess_build
  · exact State.commandWrite_build hcmd
  · exact s.writeReg_build _ v

theorem State.awaitDone_build (s : State) : s.awaitDone.build = s.build := by
  unfold State.awaitDone
  split <;> simp

theorem State.move_build {s t : State} {m : Move} (h : s.move m = .next t) : t.build = s.build := by
  cases m with
  | block => cases h; exact s.blockMove_build
  | read off width => cases h; exact s.clientRead_build off width
  | write off width v => exact State.clientWrite_build h
  | await => cases h; exact s.awaitDone_build
  | reset => cases h; rfl

theorem step_build {s t : State} (h : step s = .next t) : t.build = s.build := by
  obtain ⟨-, rfl⟩ | ⟨m, rest, -, hmove⟩ := step_cases h
  · exact s.blockMove_build
  · rw [State.move_build hmove, State.withAgenda_build]

/-! ### The window bytes of `CEIL` (20_memory.md R61, R67) -/

theorem hiByte_append_loByte (v : Count) : hiByte v ++ loByte v = v := by
  have halves : hiByte v ++ loByte v = v.extractLsb' 0 16 :=
    BitVec.extractLsb'_append_extractLsb'_eq_extractLsb' rfl
  rw [halves, BitVec.extractLsb'_eq_self]

theorem State.windowByte_ceil_high (s : State) (strobe : Bool) :
    s.windowByte strobe 0x18 = hiByte s.ceil := rfl

theorem State.windowByte_ceil_low (s : State) (strobe : Bool) :
    s.windowByte strobe 0x19 = loByte s.ceil := rfl

/-- Settles O55: every move keeps the build parameters, `CEIL` is one of them and at least 1, and its two
window bytes are its high and its low half. -/
theorem ceilIsHardwired : Obligations.CeilIsHardwired := by
  unfold Obligations.CeilIsHardwired
  refine ⟨fun s t h => step_build h, fun s => ⟨s.ceil_toNat_pos, fun strobe => ?_⟩⟩
  rw [s.windowByte_ceil_high, s.windowByte_ceil_low, hiByte_append_loByte]

end Sys2Proof.Machine

/-! The offsets of the client window that ignore a write (20_memory.md R62): which register each run of
offsets names, one equation per access of an idle block, and the two registers that store legal bits
alone. -/

namespace Sys2Proof

/-! ### The runs of the window (20_memory.md R61) -/

section

variable {off : Nat}

theorem WinReg.ofOffset_reservedLow (h : 0x1A ≤ off ∧ off < 0x20) :
    WinReg.ofOffset off = .reservedLow ⟨off - 0x1A, by omega⟩ := by
  simp (disch := omega) only [WinReg.ofOffset, if_neg, dif_neg, dif_pos]

theorem WinReg.ofOffset_monT (h : 0x20 ≤ off ∧ off < 0x3C) :
    WinReg.ofOffset off = .monT ⟨(off - 0x20) / 2, by omega⟩ (off % 2 == 0) := by
  simp (disch := omega) only [WinReg.ofOffset, if_neg, dif_neg, dif_pos]

theorem WinReg.ofOffset_reservedMid (h : 0x3C ≤ off ∧ off < 0x40) :
    WinReg.ofOffset off = .reservedMid ⟨off - 0x3C, by omega⟩ := by
  simp (disch := omega) only [WinReg.ofOffset, if_neg, dif_neg, dif_pos]

theorem WinReg.ofOffset_ctlT (h : 0x40 ≤ off ∧ off < 0x5A) :
    WinReg.ofOffset off = .ctlT ⟨(off - 0x40) / 2, by omega⟩ (off % 2 == 0) := by
  simp (disch := omega) only [WinReg.ofOffset, if_neg, dif_neg, dif_pos]

theorem WinReg.ofOffset_reservedHigh (h : 0x5A ≤ off ∧ off < 0x80) :
    WinReg.ofOffset off = .reservedHigh ⟨off - 0x5A, by omega⟩ := by
  simp (disch := omega) only [WinReg.ofOffset, if_neg, dif_neg, dif_pos]

end

/-! ### Reserved and read-only registers (20_memory.md R62) -/

/-- The registers of the reserved offsets. -/
def WinReg.reserved : WinReg → Bool
  | .reservedLow _ | .reservedMid _ | .reservedHigh _ => true
  | _ => false

/-- The read-only registers. -/
def WinReg.readOnly : WinReg → Bool
  | .status | .attempts | .xferData | .rlen | .lines | .xferT _ | .ceil _ | .monT _ _ | .ctlT _ _ => true
  | _ => false

theorem WinReg.ofOffset_reserved {off : Nat}
    (h : 0x1A ≤ off ∧ off < 0x20 ∨ 0x3C ≤ off ∧ off < 0x40 ∨ 0x5A ≤ off ∧ off < 0x80) :
    (WinReg.ofOffset off).reserved = true := by
  rcases h with low | mid | high
  · rw [WinReg.ofOffset_reservedLow low]; rfl
  · rw [WinReg.ofOffset_reservedMid mid]; rfl
  · rw [WinReg.ofOffset_reservedHigh high]; rfl

/-- The single registers and the halves of `CEIL` and `XFER_T` byte by byte, the timer records and the
reserved offsets run by run. -/
theorem WinReg.ofOffset_readOnly_or_reserved {off : Nat}
    (h : off = 0x02 ∨ off = 0x03 ∨ off = 0x0A ∨ off = 0x0B ∨ 0x0D ≤ off ∧ off < 0x10 ∨
      0x18 ≤ off ∧ off < 0x80) :
    (WinReg.ofOffset off).readOnly = true ∨ (WinReg.ofOffset off).reserved = true := by
  have runs : off ∈ [0x02, 0x03, 0x0A, 0x0B, 0x0D, 0x0E, 0x0F, 0x18, 0x19] ∨
      0x20 ≤ off ∧ off < 0x3C ∨ 0x40 ≤ off ∧ off < 0x5A ∨
      (0x1A ≤ off ∧ off < 0x20 ∨ 0x3C ≤ off ∧ off < 0x40 ∨ 0x5A ≤ off ∧ off < 0x80) := by
    simp only [List.mem_cons, List.not_mem_nil, or_false]
    omega
  rcases runs with single | mon | ctl | res
  · have singles : ∀ o ∈ [0x02, 0x03, 0x0A, 0x0B, 0x0D, 0x0E, 0x0F, 0x18, 0x19],
        (WinReg.ofOffset o).readOnly = true := by decide
    exact .inl (singles off single)
  · exact .inl (by rw [WinReg.ofOffset_monT mon]; rfl)
  · exact .inl (by rw [WinReg.ofOffset_ctlT ctl]; rfl)
  · exact .inr (WinReg.ofOffset_reserved res)

end Sys2Proof

namespace Sys2Proof.Machine

/-! ### Accesses of an idle block (20_memory.md R60 to R63) -/

theorem State.readReg_reserved (s : State) (strobe : Bool) {r : WinReg} (h : r.reserved = true) :
    s.readReg strobe r = 0 := by
  cases r with
  | reservedLow _ | reservedMid _ | reservedHigh _ => rfl
  | _ => simp [WinReg.reserved] at h

theorem State.writeReg_readOnly_or_reserved (s : State) {r : WinReg} (v : Byte)
    (h : r.readOnly = true ∨ r.reserved = true) : s.writeReg r v = s := by
  cases r with
  | cmdArg | msgAddr _ | msgDir | msgLen | msgBuf _ | link =>
    simp [WinReg.readOnly, WinReg.reserved] at h
  | _ => rfl

theorem legalAccess_byte {off : Nat} (h : off < 0x80) : legalAccess off 1 = true := by
  simp [legalAccess, h]

theorem State.clientRead_idle {s : State} {off : Nat} (hidle : s.status.busy = false)
    (hoff : off < 0x80) (hlines : WinReg.ofOffset off ≠ .lines) :
    s.clientRead off 1 = s.gotByte off (s.windowByte false off) := by
  simp [State.clientRead, legalAccess_byte hoff, hidle, hlines]

theorem State.clientWrite_idle {s : State} {off : Nat} (v : Byte) (hidle : s.status.busy = false)
    (hoff : off < 0x80) (hcmd : WinReg.ofOffset off ≠ .cmd) :
    s.clientWrite off 1 v = .next (s.writeReg (WinReg.ofOffset off) v) := by
  simp [State.clientWrite, legalAccess_byte hoff, hidle, hcmd]

theorem step_agenda_cons {s : State} {m : Move} {rest : List Move} (h : s.agenda = m :: rest) :
    step s = (s.withAgenda rest).move m := by
  simp only [step, State.nextMove, h]

theorem step_read_idle {s : State} {off : Nat} {rest : List Move} (hidle : s.status.busy = false)
    (h : s.agenda = .read off 1 :: rest) (hoff : off < 0x80)
    (hlines : WinReg.ofOffset off ≠ .lines) :
    step s = .next ((s.withAgenda rest).gotByte off (s.windowByte false off)) := by
  rw [step_agenda_cons h]
  exact congrArg _ (State.clientRead_idle (s := s.withAgenda rest) hidle hoff hlines)

theorem step_write_idle {s : State} {off : Nat} {v : Byte} {rest : List Move}
    (hidle : s.status.busy = false) (h : s.agenda = .write off 1 v :: rest) (hoff : off < 0x80)
    (hcmd : WinReg.ofOffset off ≠ .cmd) :
    step s = .next ((s.withAgenda rest).writeReg (WinReg.ofOffset off) v) := by
  rw [step_agenda_cons h]
  exact State.clientWrite_idle (s := s.withAgenda rest) v hidle hoff hcmd

/-! ### The legal bits of `LINK` (10_state.md R33) -/

theorem LinkState.written_eq (old : LinkState) (v : Byte) :
    old.written v =
      if v.toNat % 4 = 0 then .notReady
      else if v.toNat % 4 = 1 then .ready
      else if v.toNat % 4 = 2 then .initialized
      else old := by
  have low : ∀ c : BitVec 2, v.extractLsb' 0 2 = c ↔ v.toNat % 4 = c.toNat := fun c => by
    simp [← BitVec.toNat_inj]
  unfold LinkState.written
  split
  · next h0 => simp [(low 0).mp h0]
  · next h1 => simp [(low 1).mp h1]
  · next h2 => simp [(low 2).mp h2]
  · next h0 h1 h2 =>
    have n0 : v.toNat % 4 ≠ 0 := mt (low 0).mpr h0
    have n1 : v.toNat % 4 ≠ 1 := mt (low 1).mpr h1
    have n2 : v.toNat % 4 ≠ 2 := mt (low 2).mpr h2
    rw [if_neg n0, if_neg n1, if_neg n2]

/-- Settles O14: an access of an idle block is the read or write of the register that the offset names;
a reserved register reads 0, it and a read-only one ignore the write, and `MSG_DIR` and `LINK` store their
legal bits. -/
theorem reservedAndReadOnlyOffsets : Obligations.ReservedAndReadOnlyOffsets := by
  unfold Obligations.ReservedAndReadOnlyOffsets
  intro s off v rest hidle
  refine ⟨fun hread hres => ?reserved_read, fun hwrite hignored => ?ignored_write,
    fun hwrite => ?msgDir_write, fun hwrite => ?link_write⟩
  case reserved_read =>
    have hreg := WinReg.ofOffset_reserved hres
    have hlines : WinReg.ofOffset off ≠ .lines := fun h => by simp [h, WinReg.reserved] at hreg
    rw [step_read_idle hidle hread (by omega) hlines, State.windowByte,
      s.readReg_reserved false hreg]
    rfl
  case ignored_write =>
    have hreg := WinReg.ofOffset_readOnly_or_reserved hignored
    have hcmd : WinReg.ofOffset off ≠ .cmd := fun h => by
      simp [h, WinReg.readOnly, WinReg.reserved] at hreg
    rw [step_write_idle hidle hwrite (by omega) hcmd, State.writeReg_readOnly_or_reserved _ v hreg]
    rfl
  case msgDir_write =>
    rw [step_write_idle hidle hwrite (by decide) (by decide)]
    rfl
  case link_write =>
    rw [step_write_idle hidle hwrite (by decide) (by decide), ← LinkState.written_eq]
    rfl

end Sys2Proof.Machine

/-! The command byte as its three fields (30_encoding.md R81): the decoder's errors of R85 by field, the
byte that the fields make up again, and the reject that ends the accept of an illegal byte (R84). -/

namespace Sys2Proof

section

variable {c : Byte}

/-! ### The fields of a byte (30_encoding.md R81) -/

theorem opField_of_toNat {n : Nat} (h : (opField c).toNat = n) : opField c = BitVec.ofNat 4 n := by
  rw [← h, BitVec.ofNat_toNat, BitVec.setWidth_eq]

theorem cmd8_fields (c : Byte) : cmd8 (opField c) (mField c) (selField c) = c := by
  have upper : selField c ++ BitVec.ofBool (mField c) = c.extractLsb' 4 4 := by
    have bit : BitVec.ofBool (mField c) = c.extractLsb' 4 1 := by
      apply BitVec.eq_of_getLsbD_eq
      intro i hi
      obtain rfl : i = 0 := by omega
      simp [mField]
    rw [bit]
    exact BitVec.extractLsb'_append_extractLsb'_eq_extractLsb' rfl
  have whole : c.extractLsb' 4 4 ++ opField c = c.extractLsb' 0 8 :=
    BitVec.extractLsb'_append_extractLsb'_eq_extractLsb' rfl
  rw [cmd8, upper, whole, BitVec.extractLsb'_eq_self]

/-! ### Illegal fields (30_encoding.md R83, R85) -/

theorem requireSelZero_error (i : Instr) (h : selField c ≠ 0) :
    requireSelZero c i = .error .reservedField := if_neg h

theorem requireBothZero_error (i : Instr) (h : mField c = true ∨ selField c ≠ 0) :
    requireBothZero c i = .error .reservedField := by
  refine if_neg fun both => ?_
  rcases h with hm | hsel
  · simp [hm] at both
  · exact hsel both.2

theorem decode_illegalOp (h : (opField c).toNat = 0 ∨ 10 ≤ (opField c).toNat) :
    decode c = .error .illegalOp := by
  unfold decode
  split
  case h_10 => rfl
  all_goals
    next hop =>
      rw [hop] at h
      exact absurd h (by decide)

theorem decode_sel_reserved
    (hop : (opField c).toNat = 1 ∨ (opField c).toNat = 2 ∨ (opField c).toNat = 3 ∨
      (opField c).toNat = 8) (hsel : selField c ≠ 0) :
    decode c = .error .reservedField := by
  rcases hop with h | h | h | h <;>
    simp only [decode, opField_of_toNat h, requireSelZero_error _ hsel]

theorem decode_mode_or_sel_reserved
    (hop : (opField c).toNat = 4 ∨ (opField c).toNat = 5 ∨ (opField c).toNat = 6 ∨
      (opField c).toNat = 7) (hfields : mField c = true ∨ selField c ≠ 0) :
    decode c = .error .reservedField := by
  rcases hop with h | h | h | h <;>
    simp only [decode, opField_of_toNat h, requireBothZero_error _ hfields]

theorem decode_diag_mode_reserved (hop : (opField c).toNat = 9) (hm : mField c = true) :
    decode c = .error .reservedField := by
  simp only [decode, opField_of_toNat hop, requireModeZero, hm, if_true]

theorem decode_diag (hop : (opField c).toNat = 9) (hm : mField c = false) :
    decode c = .ok (.diagRd (selField c)) := by
  simp [decode, opField_of_toNat hop, requireModeZero, hm]

theorem encode_diag (hop : (opField c).toNat = 9) (hm : mField c = false) :
    encode (.diagRd (selField c)) = c := by
  have fields := cmd8_fields c
  rw [opField_of_toNat hop, hm] at fields
  exact fields

end

end Sys2Proof

namespace Sys2Proof.Machine

/-! ### The reject of a written byte (30_encoding.md R84, 60_exceptions.md R221) -/

/-- The code with which the accept rejects a byte that does not decode (30_encoding.md R85). -/
def encodingCode : EncodingError → ErrCode
  | .illegalOp => .illegalOp
  | .reservedField => .reservedField

section

variable {s : State} {c : Byte} {rest : List Move}

theorem State.acceptIllegal_idle (e : EncodingError) (hidle : s.status.busy = false) :
    s.acceptIllegal c e = (s.takeCommand c).reject (encodingCode e) := by
  cases e <;> simp [State.acceptIllegal, hidle, encodingCode]

theorem step_writes_command (h : s.agenda = .write 0x00 1 c :: rest) :
    step s = (s.withAgenda rest).commandWrite c := by
  rw [step_agenda_cons h]
  rfl

theorem step_rejects_undecoded {e : EncodingError} (hidle : s.status.busy = false)
    (h : s.agenda = .write 0x00 1 c :: rest) (hdecode : decode c = .error e) :
    step s = .next (((s.withAgenda rest).takeCommand c).reject (encodingCode e)) := by
  rw [step_writes_command h, State.commandWrite, hdecode, ← State.acceptIllegal_idle e]
  exact hidle

theorem step_rejects_badSelect (hidle : s.status.busy = false)
    (h : s.agenda = .write 0x00 1 c :: rest) (hop : (opField c).toNat = 9)
    (hm : mField c = false) (hsel : 5 ≤ (selField c).toNat) :
    step s = .next (((s.withAgenda rest).takeCommand c).reject .badSelect) := by
  have hcheck : diagCheck (selField c) = some .badSelect := if_pos hsel
  have hb : (s.withAgenda rest).status.busy = false := hidle
  rw [step_writes_command h, State.commandWrite, decode_diag hop hm]
  simp only [exec_diagRd, hcheck, State.accept_rejected _ _ _ _ hb, encode_diag hop hm]

end

/-- Settles O5: an illegal byte either does not decode, or is DIAG_RD with a selector that its accept
rejects; both ends are `State.reject`. -/
theorem illegalBytesAreRejected : Obligations.IllegalBytesAreRejected := by
  unfold Obligations.IllegalBytesAreRejected
  intro s c rest hidle hagenda op m sel rejected
  have undecoded {e : EncodingError} (h : decode c = .error e) : rejected (encodingCode e) :=
    ⟨s.la, s.ll, step_rejects_undecoded hidle hagenda h⟩
  have nonzero (h : sel ≠ 0) : selField c ≠ 0 := fun h0 => h (congrArg BitVec.toNat h0)
  exact ⟨fun hop => undecoded (decode_illegalOp hop),
    fun hop hsel => undecoded (decode_sel_reserved hop (nonzero hsel)),
    fun hop h => undecoded (decode_mode_or_sel_reserved hop (h.imp_right nonzero)),
    fun hop hm => undecoded (decode_diag_mode_reserved hop hm),
    fun hop hm hsel => ⟨s.la, s.ll, step_rejects_badSelect hidle hagenda hop hm hsel⟩⟩

/-! ### Byte orders (00_scope.md R6, 30_encoding.md R94) -/

theorem ofLe32_byteOf (v : Rca) :
    ofLe32 (byteOf v 0) (byteOf v 1) (byteOf v 2) (byteOf v 3) = v := by
  have upper : byteOf v 3 ++ byteOf v 2 = v.extractLsb' 16 16 :=
    BitVec.extractLsb'_append_extractLsb'_eq_extractLsb' rfl
  have upper3 : v.extractLsb' 16 16 ++ byteOf v 1 = v.extractLsb' 8 24 :=
    BitVec.extractLsb'_append_extractLsb'_eq_extractLsb' rfl
  have whole : v.extractLsb' 8 24 ++ byteOf v 0 = v.extractLsb' 0 32 :=
    BitVec.extractLsb'_append_extractLsb'_eq_extractLsb' rfl
  rw [ofLe32, upper, upper3, whole, BitVec.extractLsb'_eq_self]

/-- Settles O59: the bytes are the model's by definition, and four bytes of a value, least significant
first, are that value again. -/
theorem rangeReplyRoundTrip : Obligations.RangeReplyRoundTrip := by
  unfold Obligations.RangeReplyRoundTrip
  refine ⟨fun low high => ⟨rfl, ?_⟩, by decide⟩
  have reply : rangeOfReply (rangeReply low high) =
      some (ofLe32 (byteOf low 0) (byteOf low 1) (byteOf low 2) (byteOf low 3),
        ofLe32 (byteOf high 0) (byteOf high 1) (byteOf high 2) (byteOf high 3)) := rfl
  rw [reply, ofLe32_byteOf, ofLe32_byteOf]

end Sys2Proof.Machine

/-! Phases that see the strobe, whatever the delays below `CEIL` are (40_transfer_primitive.md R110 to
R113), and the slots that a transaction writes in the order of its phases. -/

namespace Sys2Proof.Machine

/-! ### Runs of the block -/

theorem blockMoves_add (m n : Nat) (s : State) :
    blockMoves (m + n) s = blockMoves n (blockMoves m s) := by
  induction m generalizing s with
  | zero => rw [Nat.zero_add]; rfl
  | succ m ih => rw [Nat.succ_add]; exact ih s.blockMove

theorem strobesAfter_cons_append (n : Nat) (ws : List Nat) (rest : List Bool) :
    strobesAfter (n :: ws) ++ rest =
      List.replicate n false ++ true :: (strobesAfter ws ++ rest) := by
  simp [strobesAfter]

theorem strobesAfter_append (ws ws' : List Nat) :
    strobesAfter (ws ++ ws') = strobesAfter ws ++ strobesAfter ws' := List.flatMap_append

/-! ### The polls of a phase (40_transfer_primitive.md R110, R111) -/

/-- The state of a phase whose `n` failed polls and the successful one after them have been made. -/
def State.strobeSeen (s : State) (n : Nat) (rest : List Bool) : State :=
  { s with
    strobes := rest
    tmr := s.tmr - BitVec.ofNat 16 n
    trace := s.trace ++ (failedPolls n ++ [.poll true]) }

theorem State.blockMove_failedPoll {s : State} {bs : List Bool} (hrun : s.seq ≠ .idle)
    (hstrobes : s.strobes = false :: bs) (htmr : 1 < s.tmr.toNat) :
    s.blockMove =
      { s with strobes := bs, tmr := s.tmr - 1, trace := s.trace ++ [.poll false] } := by
  obtain ⟨hstrobe, htaken⟩ := State.strobe_cons hstrobes
  have hcount : s.tmr - 1 ≠ 0 := by bv_omega
  rw [s.blockMove_running hrun, s.pollMove_waits hstrobe hcount, htaken]
  rfl

theorem blockMoves_strobeSeen {s : State} {n : Nat} {rest : List Bool} (hrun : s.seq ≠ .idle)
    (hstrobes : s.strobes = List.replicate n false ++ true :: rest) (htmr : n < s.tmr.toNat) :
    blockMoves (n + 1) s = (s.strobeSeen n rest).endPhase := by
  induction n generalizing s with
  | zero =>
    obtain ⟨hstrobe, htaken⟩ := State.strobe_cons hstrobes
    have seen : s.strobeTaken.emit (.poll true) = s.strobeSeen 0 rest := by
      rw [htaken]
      simp [State.strobeSeen, State.emit, failedPolls]
    rw [← seen, ← s.pollMove_seen hstrobe, ← s.blockMove_running hrun]
    rfl
  | succ n ih =>
    have first := State.blockMove_failedPoll hrun hstrobes (by omega)
    have left : n < s.blockMove.tmr.toNat := by rw [first]; bv_omega
    have later := ih (s := s.blockMove) (by rwa [first]) (by rw [first]; rfl) left
    have merged : s.blockMove.strobeSeen n rest = s.strobeSeen (n + 1) rest := by
      have htmr' : s.tmr - 1#16 - BitVec.ofNat 16 n = s.tmr - BitVec.ofNat 16 (n + 1) := by
        bv_omega
      rw [first]
      simp [State.strobeSeen, failedPolls, List.replicate_succ, htmr']
    rw [← merged, ← later]
    rfl

/-! ### Whole phases (40_transfer_primitive.md R110, R112, R113) -/

/-- The state after a write phase that saw the strobe after `n` failed polls, before its command goes
on. -/
def State.sent (s : State) (n : Nat) (rest : List Bool) : State :=
  { s with
    strobes := rest
    tmr := s.tmr - BitVec.ofNat 16 n
    dout := s.byteOut
    ack := false
    trace := s.trace ++ writePhase n s.byteOut }

/-- The same of a read phase, which has captured `b`. -/
def State.received (s : State) (n : Nat) (rest : List Bool) (b : Byte) (more : List Byte) : State :=
  { s with
    strobes := rest
    dins := more
    tmr := s.tmr - BitVec.ofNat 16 n
    ack := false
    trace := s.trace ++ readPhase n b }

section

variable {s : State} {n : Nat} {rest : List Bool}

/-- What a phase leaves of the countdown that its start loaded (40_transfer_primitive.md R111). -/
theorem State.tmr_sub_eq_remainder (s : State) (n : Nat) (h : s.tmr = s.ceil) :
    s.tmr - BitVec.ofNat 16 n = remainder s.build n := by
  rw [h]
  rfl

theorem State.strobeSeen_phaseOk (htmr : n < s.tmr.toNat) :
    (s.strobeSeen n rest).phaseOk = true := by
  have hcount : s.tmr - BitVec.ofNat 16 n ≠ 0 := by bv_omega
  exact decide_eq_true hcount

theorem State.endPhase_seen (h : s.phaseOk = true) :
    s.endPhase = s.dataLeg.afterExchange true s.captured := by
  simp [State.endPhase, State.endExchange, h, State.legPerformed_of_phaseOk h]

theorem State.dataLeg_strobeSeen_write (hmode : s.seq.mode = .write) :
    (s.strobeSeen n rest).dataLeg = s.sent n rest := by
  have hmode' : (s.strobeSeen n rest).seq.mode = .write := hmode
  have hbyte : (s.strobeSeen n rest).byteOut = s.byteOut := rfl
  rw [State.dataLeg, hmode', hbyte]
  simp [State.strobeSeen, State.sent, State.driveByte, State.pulseAck, State.emit, writePhase]

theorem State.dataLeg_strobeSeen_read {b : Byte} {more : List Byte} (hmode : s.seq.mode = .read)
    (hdins : s.dins = b :: more) :
    (s.strobeSeen n rest).dataLeg = s.received n rest b more := by
  have hmode' : (s.strobeSeen n rest).seq.mode = .read := hmode
  obtain ⟨hdin, htaken⟩ := State.din_cons (s := s.strobeSeen n rest) hdins
  rw [State.dataLeg, hmode', State.senseByte, hdin, htaken]
  simp [State.strobeSeen, State.received, State.pulseAck, State.emit, readPhase]

theorem blockMoves_writePhase (hrun : s.seq ≠ .idle) (hmode : s.seq.mode = .write)
    (hstrobes : s.strobes = List.replicate n false ++ true :: rest) (htmr : n < s.tmr.toNat) :
    blockMoves (n + 1) s = (s.sent n rest).afterExchange true none := by
  have hcaptured : (s.strobeSeen n rest).captured = none := by
    have hmode' : (s.strobeSeen n rest).seq.mode = .write := hmode
    rw [State.captured, hmode']
  rw [blockMoves_strobeSeen hrun hstrobes htmr, State.endPhase_seen (State.strobeSeen_phaseOk htmr),
    State.dataLeg_strobeSeen_write hmode, hcaptured]

theorem blockMoves_readPhase {b : Byte} {more : List Byte} (hrun : s.seq ≠ .idle)
    (hmode : s.seq.mode = .read) (hdins : s.dins = b :: more)
    (hstrobes : s.strobes = List.replicate n false ++ true :: rest) (htmr : n < s.tmr.toNat) :
    blockMoves (n + 1) s = (s.received n rest b more).afterExchange true (some b) := by
  have hok := State.strobeSeen_phaseOk (rest := rest) htmr
  have hdin : (s.strobeSeen n rest).din = b := (State.din_cons hdins).1
  rw [blockMoves_strobeSeen hrun hstrobes htmr, State.endPhase_seen hok,
    State.dataLeg_strobeSeen_read hmode hdins, State.captured_of_phaseOk hok hmode, hdin]

end

/-! ### Slots written in order -/

/-- `v` with `as` written into its places from `k` on; what is past the end is dropped. -/
def storeFrom {α : Type} {m : Nat} (v : Vector α m) (k : Nat) (as : List α) : Vector α m :=
  Vector.ofFn fun j => if j.val < k then v[j] else as.getD (j.val - k) v[j]

section

variable {α : Type} {m : Nat}

theorem getElem_storeFrom (v : Vector α m) (k : Nat) (as : List α) (j : Nat) (hj : j < m) :
    (storeFrom v k as)[j] = if j < k then v[j] else as.getD (j - k) v[j] := by
  simp [storeFrom]

theorem storeFrom_nil (v : Vector α m) (k : Nat) : storeFrom v k [] = v :=
  Vector.ext fun j hj => by simp [getElem_storeFrom]

theorem storeFrom_set (v : Vector α m) (k : Nat) (hk : k < m) (a : α) (as : List α) :
    storeFrom (v.set k a) (k + 1) as = storeFrom v k (a :: as) := by
  refine Vector.ext fun j hj => ?_
  rw [getElem_storeFrom, getElem_storeFrom, Vector.getElem_set]
  rcases Nat.lt_trichotomy j k with before | rfl | after
  · rw [if_pos (by omega), if_neg (by omega), if_pos before]
  · simp
  · have hpred : j - k = j - (k + 1) + 1 := by omega
    rw [if_neg (by omega), if_neg (by omega), if_neg (by omega), hpred, List.getD_cons_succ]

theorem storeFrom_append (v : Vector α m) (k : Nat) (as bs : List α) :
    storeFrom (storeFrom v k as) (k + as.length) bs = storeFrom v k (as ++ bs) := by
  refine Vector.ext fun j hj => ?_
  rw [getElem_storeFrom, getElem_storeFrom, getElem_storeFrom]
  by_cases hk : j < k
  · rw [if_pos (by omega), if_pos hk, if_pos hk]
  · by_cases has : j - k < as.length
    · rw [if_pos (by omega), if_neg hk, if_neg hk, List.getD_append _ _ _ _ has]
    · rw [if_neg (by omega), if_neg hk, if_neg hk, List.getD_append_right _ _ _ _ (by omega),
        List.getD_eq_default as _ (by omega), Nat.sub_sub]

end

/-- A timer array that was cleared and then written in the order of the phases: the remainder of each
phase, and 0 past the last one (41_transactions.md R141). -/
theorem getElem_storeFrom_remainders {m : Nat} (b : Build) (waits : List Nat) (k : Fin m) :
    (storeFrom (Vector.replicate m 0) 0 (waits.map (remainder b)))[k] =
      (waits[k.val]?.map (remainder b)).getD 0 := by
  rw [Fin.getElem_fin, getElem_storeFrom]
  simp

end Sys2Proof.Machine

/-! A Control transaction that never times out (30_encoding.md R88, 41_transactions.md R142). -/

namespace Sys2Proof.Machine

/-! ### The phases of a Control frame (10_state.md R40, 41_transactions.md R142) -/

/-- The phase with the frame's last slot is the one that no phase follows. -/
theorem CtlPhase.slot_of_next_none {ph : CtlPhase} {ll : Byte} (h : ph.next ll = none)
    (hll : ll.toNat ≤ 8) (hpayload : ∀ i, ph = .payload i → i.val < ll.toNat) :
    ph.slot.val + 1 = 5 + ll.toNat := by
  cases ph with
  | addr k =>
    simp only [CtlPhase.next] at h
    split at h <;> cases h
  | len =>
    have hzero : ll = 0 := firstPayload_none.mp (by simpa [CtlPhase.next] using h)
    rw [hzero]
    rfl
  | payload i =>
    have hi := hpayload i rfl
    have hlast : nextPayload i ll = none := by simpa [CtlPhase.next] using h
    have hslot : (CtlPhase.payload i).slot.val = 5 + i.val := rfl
    unfold nextPayload at hlast
    split at hlast
    · split at hlast
      · cases hlast
      · omega
    · omega

theorem controlFrame_length (rca : Rca) {len : Byte} (buf : Vector Byte 8) (hlen : len.toNat ≤ 8) :
    (controlFrame rca len buf).length = 5 + len.toNat := by
  simp [controlFrame, le32]
  omega

/-- The byte that a Control phase sends is the byte of the frame that its slot counts. -/
theorem controlFrame_drop_slot {s : State} {c : CtlCmd} {ph : CtlPhase}
    (hseq : s.seq = .control c ph) (hpayload : ∀ i, ph = .payload i → i.val < s.ll.toNat) :
    (controlFrame s.la s.ll s.msgBuf).drop ph.slot.val =
      s.byteOut :: (controlFrame s.la s.ll s.msgBuf).drop (ph.slot.val + 1) := by
  have hbyte : (controlFrame s.la s.ll s.msgBuf)[ph.slot.val]? = some s.byteOut := by
    rw [State.byteOut, hseq]
    cases ph with
    | addr k =>
      have hk : k = 0 ∨ k = 1 ∨ k = 2 ∨ k = 3 := by omega
      rcases hk with rfl | rfl | rfl | rfl <;> rfl
    | len => rfl
    | payload i =>
      have hslot : (CtlPhase.payload i).slot.val = i.val + 5 := Nat.add_comm 5 i.val
      rw [hslot]
      simp [controlFrame, le32, hpayload i rfl]
  obtain ⟨hlt, hget⟩ := List.getElem?_eq_some_iff.mp hbyte
  rw [List.drop_eq_getElem_cons hlt, hget]

section

variable {c : CtlCmd} {ph ph' : CtlPhase}

theorem State.afterExchange_control (s : State) (h : s.seq = .control c ph) (ok : Bool)
    (v : Option Byte) :
    s.afterExchange ok v = s.afterControlPhase c ph ok := by
  rw [State.afterExchange, h]

theorem State.afterControlPhase_next (s : State) (h : ph.next s.ll = some ph') :
    s.afterControlPhase c ph true = (s.recordControl ph).startPhase (.control c ph') := by
  simp [State.afterControlPhase, h]

theorem State.afterControlPhase_last (s : State) (h : ph.next s.ll = none) :
    s.afterControlPhase c ph true = (s.recordControl ph).endControl := by
  simp [State.afterControlPhase, h]

theorem blockMoves_controlPhase {s : State} {n : Nat} {bs : List Bool} (hseq : s.seq = .control c ph)
    (hstrobes : s.strobes = List.replicate n false ++ true :: bs) (htmr : n < s.tmr.toNat) :
    blockMoves (n + 1) s = (s.sent n bs).afterControlPhase c ph true := by
  rw [blockMoves_writePhase (by simp [hseq]) (by rw [hseq]; rfl) hstrobes htmr]
  exact (s.sent n bs).afterExchange_control hseq true none

end

/-! ### The transaction -/

/-- The end of a Control transaction that sent `bytes` from slot `k` on after the delays `waits`, the
last phase leaving `tmr`. -/
def State.controlDone (s : State) (k : Nat) (waits : List Nat) (bytes : List Byte) (rest : List Bool)
    (tmr : Count) : State :=
  { s with
    status := s.status.finished true .none
    seq := .idle
    attn := false
    ack := false
    dout := bytes.getLastD s.dout
    ctlT := storeFrom s.ctlT k (waits.map (remainder s.build))
    tmr := tmr
    strobes := rest
    trace := s.trace ++ (List.zipWith writePhase waits bytes).flatten ++ [.attnOff] }

section

variable {s : State} {ph : CtlPhase} {n : Nat}

theorem State.controlDone_cons {bs rest : List Bool} {place : Seq} {ws : List Nat}
    {bytes : List Byte} {tmr : Count} (hrem : s.tmr - BitVec.ofNat 16 n = remainder s.build n) :
    (((s.sent n bs).recordControl ph).startPhase place).controlDone (ph.slot.val + 1) ws bytes rest
        tmr =
      s.controlDone ph.slot.val (n :: ws) (s.byteOut :: bytes) rest tmr := by
  simp [State.controlDone, State.sent, State.recordControl, State.startPhase, hrem, storeFrom_set,
    List.getLast?_cons]

theorem State.endControl_eq_controlDone {rest : List Bool}
    (hrem : s.tmr - BitVec.ofNat 16 n = remainder s.build n) :
    ((s.sent n rest).recordControl ph).endControl =
      s.controlDone ph.slot.val [n] [s.byteOut] rest (remainder s.build n) := by
  simp [State.controlDone, State.sent, State.recordControl, State.endControl, State.attnOff,
    State.finish, State.emit, hrem, ← storeFrom_set, storeFrom_nil]

end

/-- The phases from `ph` on, each the next one's start (41_transactions.md R142): by induction on their
delays, with the frame read from the slot of `ph` on. -/
theorem blockMoves_control {s : State} {c : CtlCmd} {ph : CtlPhase} {waits : List Nat}
    {rest : List Bool} (hseq : s.seq = .control c ph) (htmr : s.tmr = s.ceil)
    (hll : s.ll.toNat ≤ 8) (hpayload : ∀ i, ph = .payload i → i.val < s.ll.toNat)
    (hlen : ph.slot.val + waits.length = 5 + s.ll.toNat) (hwaits : ∀ n ∈ waits, n < s.ceil.toNat)
    (hstrobes : s.strobes = strobesAfter waits ++ rest) :
    ∃ tmr, blockMoves (waits.map (· + 1)).sum s =
      s.controlDone ph.slot.val waits ((controlFrame s.la s.ll s.msgBuf).drop ph.slot.val) rest
        tmr := by
  induction waits generalizing s ph with
  | nil =>
    have hbyte := congrArg List.length (controlFrame_drop_slot hseq hpayload)
    rw [List.length_drop, List.length_cons, controlFrame_length _ _ hll] at hbyte
    rw [List.length_nil] at hlen
    omega
  | cons n ws ih =>
    have hfirst : n < s.tmr.toNat := by rw [htmr]; exact hwaits n List.mem_cons_self
    have hrem := s.tmr_sub_eq_remainder n htmr
    have hsplit := hstrobes.trans (strobesAfter_cons_append n ws rest)
    rw [List.length_cons] at hlen
    rw [List.map_cons, List.sum_cons, blockMoves_add, blockMoves_controlPhase hseq hsplit hfirst,
      controlFrame_drop_slot hseq hpayload]
    cases hnext : ph.next s.ll with
    | some ph' =>
      obtain ⟨hslot, hpayload'⟩ := CtlPhase.next_slot hnext
      rw [State.afterControlPhase_next (s.sent n _) hnext]
      obtain ⟨tmr, later⟩ :=
        ih (s := ((s.sent n (strobesAfter ws ++ rest)).recordControl ph).startPhase (.control c ph'))
          rfl rfl hll hpayload' (by rw [hslot, Nat.add_assoc, Nat.add_comm 1]; exact hlen)
          (fun m hm => hwaits m (List.mem_cons_of_mem n hm)) rfl
      rw [hslot, State.controlDone_cons hrem] at later
      exact ⟨tmr, later⟩
    | none =>
      have hlast := CtlPhase.slot_of_next_none hnext hll hpayload
      obtain rfl : ws = [] := List.eq_nil_of_length_eq_zero (by omega)
      have hempty : (controlFrame s.la s.ll s.msgBuf).drop (ph.slot.val + 1) = [] :=
        List.drop_eq_nil_of_le (by rw [controlFrame_length _ _ hll]; omega)
      rw [State.afterControlPhase_last (s.sent n _) hnext, hempty]
      exact ⟨remainder s.build n, State.endControl_eq_controlDone hrem⟩

/-- The accept of a command that runs a Control transaction starts it (41_transactions.md R140,
42_dispatch.md R182). -/
theorem exec_runsControl {i : Instr} {s : State} (hready : TransactionReady s)
    (hi : runsControl i s.msgDir = true) :
    ∃ c, exec i s = .next ((s.accepted i).latch.startControl c) := by
  obtain ⟨hidle, hlines, hlen⟩ := hready
  have hcheck := State.txnCheck_none.mpr ⟨hlines, hlen⟩
  cases i with
  | ctrl => exact ⟨.ctrl, by rw [exec_ctrl, hcheck, State.accept_runs _ _ _ hidle]⟩
  | fwd e =>
    have hdir : s.msgDir = .control := by simpa [runsControl] using hi
    exact ⟨.fwd e, by rw [exec_fwd_control e s hdir, hcheck, State.accept_runs _ _ _ hidle]⟩
  | _ => simp [runsControl] at hi

/-- Settles O37: the accept starts address phase 0, and from there the phases send the frame byte by
byte to the transaction's end. -/
theorem controlTransmitsItsFrame : Obligations.ControlTransmitsItsFrame := by
  unfold Obligations.ControlTransmitsItsFrame
  intro i s waits rest hready hi hlen hwaits hstrobes
  obtain ⟨c, hexec⟩ := exec_runsControl hready hi
  obtain ⟨-, ⟨hdir, -⟩, hll⟩ := hready
  obtain ⟨tmr, hrun⟩ := blockMoves_control (s := (s.accepted i).latch.startControl c) rfl rfl hll
    (fun _ h => by cases h) ((Nat.zero_add _).trans hlen) hwaits hstrobes
  have hlast : some ((controlFrame s.msgAddr s.msgLen s.msgBuf).getLastD s.dout) =
      (controlFrame s.msgAddr s.msgLen s.msgBuf).getLast? := by
    simp [controlFrame, le32, List.getLastD_eq_getLast?, List.getLast?_cons]
  refine ⟨_, _, hexec, hrun, rfl, rfl, rfl, rfl, rfl, fun k => ?slots, ⟨hdir, rfl⟩, rfl, hlast,
    ?frame⟩
  case slots =>
    refine (getElem_storeFrom_remainders s.build waits k).trans ?_
    cases waits[k.val]? <;> rfl
  case frame => simp [State.controlDone]

end Sys2Proof.Machine

/-! A Monitor transaction that never times out and gets a reply of at most 8 bytes (30_encoding.md
R89, 41_transactions.md R150). -/

namespace Sys2Proof.Machine

/-! ### The request (41_transactions.md R151, R152) -/

section

variable {s : State} {c : MonCmd} {ph : MonPhase} {n : Nat} {bs : List Bool}

theorem State.afterExchange_monitor (s : State) (h : s.seq = .monitor c ph) (ok : Bool)
    (v : Option Byte) :
    s.afterExchange ok v = s.afterMonitorPhase c ph ok v := by
  rw [State.afterExchange, h]

theorem blockMoves_monitorWrite (hseq : s.seq = .monitor c ph) (hmode : s.seq.mode = .write)
    (hstrobes : s.strobes = List.replicate n false ++ true :: bs) (htmr : n < s.tmr.toNat) :
    blockMoves (n + 1) s = (s.sent n bs).afterMonitorPhase c ph true none := by
  rw [blockMoves_writePhase (by simp [hseq]) hmode hstrobes htmr]
  exact (s.sent n bs).afterExchange_monitor hseq true none

theorem blockMoves_monitorRead {b : Byte} {more : List Byte} (hseq : s.seq = .monitor c ph)
    (hmode : s.seq.mode = .read) (hdins : s.dins = b :: more)
    (hstrobes : s.strobes = List.replicate n false ++ true :: bs) (htmr : n < s.tmr.toNat) :
    blockMoves (n + 1) s = (s.received n bs b more).afterMonitorPhase c ph true (some b) := by
  rw [blockMoves_readPhase (by simp [hseq]) hmode hdins hstrobes htmr]
  exact (s.received n bs b more).afterExchange_monitor hseq true (some b)

/-- An address phase that saw the strobe is followed by the write phase of the next slot. -/
theorem afterMonitorAddr_next (c : MonCmd) (k : Fin 4) :
    ∃ ph : MonPhase, ph.slot.val = k.val + 1 ∧ (Seq.monitor c ph).mode = .write ∧
      ∀ s : State, s.afterMonitorAddr c k true = s.startPhase (.monitor c ph) := by
  have hk : k = 0 ∨ k = 1 ∨ k = 2 ∨ k = 3 := by omega
  rcases hk with rfl | rfl | rfl | rfl
  · exact ⟨.addr 1, rfl, rfl, fun _ => rfl⟩
  · exact ⟨.addr 2, rfl, rfl, fun _ => rfl⟩
  · exact ⟨.addr 3, rfl, rfl, fun _ => rfl⟩
  · exact ⟨.rql, rfl, rfl, fun _ => rfl⟩

theorem monitorRequest_length (rca : Rca) (len : Byte) : (monitorRequest rca len).length = 5 := rfl

/-- The byte that a write phase sends is the byte of the request that its slot counts. -/
theorem monitorRequest_drop_slot (hseq : s.seq = .monitor c ph) (hmode : s.seq.mode = .write) :
    (monitorRequest s.la s.ll).drop ph.slot.val =
      s.byteOut :: (monitorRequest s.la s.ll).drop (ph.slot.val + 1) := by
  rw [State.byteOut, hseq]
  rw [hseq] at hmode
  cases ph with
  | addr k =>
    have hk : k = 0 ∨ k = 1 ∨ k = 2 ∨ k = 3 := by omega
    rcases hk with rfl | rfl | rfl | rfl <;> rfl
  | rql => rfl
  | rsl => cases hmode
  | payload i => cases hmode

end

/-- The state that waits for the response length, after the write phases from slot `k` on have sent
`bytes`, the last of them the request length, with the delays `waits`. -/
def State.requestSent (s : State) (c : MonCmd) (k : Nat) (waits : List Nat) (bytes : List Byte)
    (rest : List Bool) : State :=
  { s with
    seq := .monitor c .rsl
    dir := .sense
    ack := false
    dout := s.ll
    monT := storeFrom s.monT k (waits.map (remainder s.build))
    tmr := s.ceil
    strobes := rest
    trace := s.trace ++ (List.zipWith writePhase waits bytes).flatten ++ [.dirSense] }

theorem State.requestSent_cons {s : State} {c : MonCmd} {ph : MonPhase} {n : Nat}
    {bs rest : List Bool} {place : Seq} {ws : List Nat} {bytes : List Byte}
    (hrem : s.tmr - BitVec.ofNat 16 n = remainder s.build n) :
    (((s.sent n bs).recordMonitor ph).startPhase place).requestSent c (ph.slot.val + 1) ws bytes
        rest =
      s.requestSent c ph.slot.val (n :: ws) (s.byteOut :: bytes) rest := by
  simp [State.requestSent, State.sent, State.recordMonitor, State.startPhase, hrem, storeFrom_set,
    State.ceil]

theorem State.endRequest_eq_requestSent {s : State} {c : MonCmd} {n : Nat} {rest : List Bool}
    (hseq : s.seq = .monitor c .rql) (hrem : s.tmr - BitVec.ofNat 16 n = remainder s.build n) :
    (s.sent n rest).afterMonitorPhase c .rql true none = s.requestSent c 4 [n] [s.byteOut] rest := by
  have hbyte : s.byteOut = s.ll := by rw [State.byteOut, hseq]
  simp [State.requestSent, State.sent, State.afterMonitorPhase, State.recordMonitor,
    State.afterRequestLength, State.dirSense, State.emit, State.startPhase, hrem, hbyte,
    ← storeFrom_set, storeFrom_nil, State.ceil, MonPhase.slot]

theorem blockMoves_request {s : State} {c : MonCmd} {ph : MonPhase} {waits : List Nat}
    {rest : List Bool} (hseq : s.seq = .monitor c ph) (hmode : s.seq.mode = .write)
    (htmr : s.tmr = s.ceil) (hlen : ph.slot.val + waits.length = 5)
    (hwaits : ∀ n ∈ waits, n < s.ceil.toNat) (hstrobes : s.strobes = strobesAfter waits ++ rest) :
    blockMoves (waits.map (· + 1)).sum s =
      s.requestSent c ph.slot.val waits ((monitorRequest s.la s.ll).drop ph.slot.val) rest := by
  induction waits generalizing s ph with
  | nil =>
    have hbyte := congrArg List.length (monitorRequest_drop_slot hseq hmode)
    rw [List.length_drop, List.length_cons, monitorRequest_length] at hbyte
    rw [List.length_nil] at hlen
    omega
  | cons n ws ih =>
    have hfirst : n < s.tmr.toNat := by rw [htmr]; exact hwaits n List.mem_cons_self
    have hrem := s.tmr_sub_eq_remainder n htmr
    have hsplit := hstrobes.trans (strobesAfter_cons_append n ws rest)
    rw [List.length_cons] at hlen
    rw [List.map_cons, List.sum_cons, blockMoves_add,
      blockMoves_monitorWrite hseq hmode hsplit hfirst, monitorRequest_drop_slot hseq hmode]
    rw [hseq] at hmode
    cases ph with
    | addr k =>
      obtain ⟨ph', hslot, hmode', hnext⟩ := afterMonitorAddr_next c k
      have hslot' : ph'.slot.val = (MonPhase.addr k).slot.val + 1 := hslot
      have later :=
        ih (s := ((s.sent n (strobesAfter ws ++ rest)).recordMonitor (.addr k)).startPhase
            (.monitor c ph'))
          rfl hmode' rfl (by rw [hslot', Nat.add_assoc, Nat.add_comm 1]; exact hlen)
          (fun m hm => hwaits m (List.mem_cons_of_mem n hm)) rfl
      rw [hslot', State.requestSent_cons hrem] at later
      rw [State.afterMonitorPhase, hnext]
      exact later
    | rql =>
      have hslot : (MonPhase.rql).slot.val = 4 := rfl
      obtain rfl : ws = [] := List.eq_nil_of_length_eq_zero (by omega)
      exact State.endRequest_eq_requestSent hseq hrem
    | rsl => cases hmode
    | payload i => cases hmode

/-! ### The response (41_transactions.md R153, R154) -/

/-- How a Monitor transaction goes on with `i` payload bytes of its response received (R154). -/
def State.awaitPayload (s : State) (c : MonCmd) (i : Nat) : State :=
  if h : i < 8 ∧ i < s.rlen.toNat then s.startPhase (.monitor c (.payload ⟨i, h.1⟩))
  else s.monitorEpilogue c .peerTimeout

theorem State.afterResponseLength_awaits (s : State) (c : MonCmd) {n : Byte} (hn : n.toNat ≤ 8) :
    s.afterResponseLength c true (some n) =
      (s.storeLength (some n)).takeLength.awaitPayload c 0 := by
  have hfits : ¬ 8 < n.toNat := Nat.not_lt.mpr hn
  by_cases hempty : n = 0
  · simp [State.afterResponseLength, State.awaitPayload, firstPayload, hempty]
  · have hpos : 0 < n.toNat := by bv_omega
    have hfirst : firstPayload n = some 0 := if_neg hempty
    simp [State.afterResponseLength, State.awaitPayload, hfirst, hfits, hpos]

theorem State.afterResponsePayload_awaits (s : State) (c : MonCmd) (i : Fin 8) (v : Option Byte) :
    s.afterResponsePayload c i true v = (s.storePayload i v).awaitPayload c (i.val + 1) := by
  by_cases hbuffer : i.val + 1 < 8
  · by_cases hmore : i.val + 1 < s.rlen.toNat <;>
      simp [State.afterResponsePayload, State.awaitPayload, nextPayload, hbuffer, hmore]
  · simp [State.afterResponsePayload, State.awaitPayload, nextPayload, hbuffer]

theorem State.endMonitor_success {s : State} (c : MonCmd) (cause : ErrCode) (h : s.tof = false) :
    s.endMonitor c cause = s.finish true .none := by
  obtain ⟨-, hend⟩ | ⟨htof, -⟩ | ⟨htof, -⟩ | ⟨htof, -⟩ := s.endMonitor_cases c cause
  · exact hend
  all_goals
    rw [h] at htof
    cases htof

/-- The end of a Monitor transaction that received the payload bytes `bytes` from index `i` on with
the delays `waits`, the last phase leaving `tmr`. -/
def State.replyDone (s : State) (i : Nat) (waits : List Nat) (bytes : List Byte) (rest : List Bool)
    (more : List Byte) (tmr : Count) : State :=
  { s with
    status := s.status.finished true .none
    seq := .idle
    dir := .drive
    attn := false
    ack := false
    monT := storeFrom s.monT (6 + i) (waits.map (remainder s.build))
    msgBuf := storeFrom s.msgBuf i bytes
    tmr := tmr
    strobes := rest
    dins := more
    trace := s.trace ++ (List.zipWith readPhase waits bytes).flatten ++ [.dirDrive, .attnOff] }

theorem State.replyDone_cons {s : State} {i : Fin 8} {n : Nat} {place : Seq} {b : Byte}
    {bs rest : List Bool} {ws : List Nat} {bytes more' more : List Byte} {tmr : Count} :
    ((((s.startPhase place).received n bs b more').recordMonitor (.payload i)).storePayload i
        (some b)).replyDone (i.val + 1) ws bytes rest more tmr =
      s.replyDone i.val (n :: ws) (b :: bytes) rest more tmr := by
  have hslot : 6 + i.val = (MonPhase.payload i).slot.val := rfl
  have hrem : s.ceil - BitVec.ofNat 16 n = remainder s.build n := rfl
  simp [State.replyDone, State.received, State.recordMonitor, State.startPhase, State.storePayload,
    hrem, ← Nat.add_assoc, hslot, storeFrom_set]

theorem State.monitorEpilogue_eq_replyDone {s : State} {rest : List Bool} {more : List Byte}
    (c : MonCmd) (i : Nat) (hstrobes : s.strobes = rest) (hdins : s.dins = more)
    (htof : s.tof = false) (hack : s.ack = false) :
    s.monitorEpilogue c .peerTimeout = s.replyDone i [] [] rest more s.tmr := by
  rw [State.monitorEpilogue, State.endMonitor_success c _ (by simpa using htof), ← hstrobes,
    ← hdins]
  simp [State.replyDone, State.dirDrive, State.attnOff, State.emit, State.finish, storeFrom_nil,
    hack]

theorem blockMoves_payload {s : State} {c : MonCmd} {i : Nat} {waits : List Nat}
    {bytes more : List Byte} {rest : List Bool} (hrlen : s.rlen.toNat = i + waits.length)
    (hfits : s.rlen.toNat ≤ 8) (hbytes : bytes.length = waits.length)
    (hwaits : ∀ n ∈ waits, n < s.ceil.toNat) (hstrobes : s.strobes = strobesAfter waits ++ rest)
    (hdins : s.dins = bytes ++ more) (htof : s.tof = false) (hack : s.ack = false) :
    ∃ tmr, blockMoves (waits.map (· + 1)).sum (s.awaitPayload c i) =
      s.replyDone i waits bytes rest more tmr := by
  induction waits generalizing s i bytes with
  | nil =>
    obtain rfl : bytes = [] := List.eq_nil_of_length_eq_zero hbytes
    have hend : s.awaitPayload c i = s.monitorEpilogue c .peerTimeout :=
      dif_neg fun h => by simp at hrlen; omega
    rw [hend]
    exact ⟨s.tmr, State.monitorEpilogue_eq_replyDone c i hstrobes hdins htof hack⟩
  | cons n ws ih =>
    obtain _ | ⟨b, bs⟩ := bytes
    · cases hbytes
    rw [List.length_cons] at hrlen
    have hi : i < 8 := by omega
    have hphase : s.awaitPayload c i = s.startPhase (.monitor c (.payload ⟨i, hi⟩)) :=
      dif_pos ⟨hi, by omega⟩
    have hsplit := hstrobes.trans (strobesAfter_cons_append n ws rest)
    obtain ⟨tmr, later⟩ :=
      ih (s := (((s.startPhase (.monitor c (.payload ⟨i, hi⟩))).received n
          (strobesAfter ws ++ rest) b (bs ++ more)).recordMonitor (.payload ⟨i, hi⟩)).storePayload
          ⟨i, hi⟩ (some b))
        (i := i + 1) (bytes := bs) (by rw [Nat.add_assoc, Nat.add_comm 1]; exact hrlen) hfits
        (Nat.succ.inj hbytes) (fun m hm => hwaits m (List.mem_cons_of_mem n hm)) rfl rfl htof rfl
    rw [State.replyDone_cons (i := ⟨i, hi⟩)] at later
    rw [List.map_cons, List.sum_cons, blockMoves_add, hphase,
      blockMoves_monitorRead (s := s.startPhase _) rfl rfl hdins hsplit
        (hwaits n List.mem_cons_self), State.afterMonitorPhase, State.afterResponsePayload_awaits]
    exact ⟨tmr, later⟩

/-- The end of a Monitor transaction that received the length of `reply` and then its bytes with the
delays `waits`, the last phase leaving `tmr`. -/
def State.responseDone (s : State) (waits : List Nat) (reply : List Byte) (rest : List Bool)
    (more : List Byte) (tmr : Count) : State :=
  { s with
    status := s.status.finished true .none
    seq := .idle
    dir := .drive
    attn := false
    ack := false
    rlen := BitVec.ofNat 8 reply.length
    msgLen := BitVec.ofNat 8 reply.length
    monT := storeFrom s.monT 5 (waits.map (remainder s.build))
    msgBuf := storeFrom s.msgBuf 0 reply
    tmr := tmr
    strobes := rest
    dins := more
    trace := s.trace ++
      (List.zipWith readPhase waits (BitVec.ofNat 8 reply.length :: reply)).flatten ++
      [.dirDrive, .attnOff] }

/-- The state after the response-length phase that captured `b` after `n` failed polls. -/
def State.lengthReceived (s : State) (n : Nat) (rest : List Bool) (b : Byte) (more : List Byte) :
    State :=
  (((s.received n rest b more).recordMonitor .rsl).storeLength (some b)).takeLength

theorem State.replyDone_eq_responseDone {s : State} {n : Nat} {ws : List Nat}
    {reply din more : List Byte} {bs rest : List Bool} {tmr : Count}
    (hrem : s.tmr - BitVec.ofNat 16 n = remainder s.build n) :
    (s.lengthReceived n bs (BitVec.ofNat 8 reply.length) din).replyDone 0 ws reply rest more tmr =
      s.responseDone (n :: ws) reply rest more tmr := by
  have hslots := storeFrom_set s.monT 5 (by decide) (remainder s.build n)
    (ws.map (remainder s.build))
  simp [State.replyDone, State.responseDone, State.lengthReceived, State.received,
    State.recordMonitor, State.storeLength, State.takeLength, MonPhase.slot, hrem, ← hslots]

theorem blockMoves_response {s : State} {c : MonCmd} {n : Nat} {ws : List Nat}
    {reply more : List Byte} {rest : List Bool} (hseq : s.seq = .monitor c .rsl)
    (htmr : s.tmr = s.ceil) (htof : s.tof = false) (hreply : reply.length ≤ 8)
    (hlen : ws.length = reply.length) (hwaits : ∀ m ∈ n :: ws, m < s.ceil.toNat)
    (hstrobes : s.strobes = strobesAfter (n :: ws) ++ rest)
    (hdins : s.dins = BitVec.ofNat 8 reply.length :: reply ++ more) :
    ∃ tmr, blockMoves ((n :: ws).map (· + 1)).sum s =
      s.responseDone (n :: ws) reply rest more tmr := by
  have hfirst : n < s.tmr.toNat := by rw [htmr]; exact hwaits n List.mem_cons_self
  have hrem := s.tmr_sub_eq_remainder n htmr
  have hn : (BitVec.ofNat 8 reply.length).toNat = reply.length := Nat.mod_eq_of_lt (by omega)
  have hsplit := hstrobes.trans (strobesAfter_cons_append n ws rest)
  obtain ⟨tmr, payload⟩ :=
    blockMoves_payload (c := c) (i := 0) (waits := ws)
      (s := s.lengthReceived n (strobesAfter ws ++ rest) (BitVec.ofNat 8 reply.length)
        (reply ++ more))
      (by rw [hlen, Nat.zero_add]; exact hn) (hn.trans_le hreply) hlen.symm
      (fun m hm => hwaits m (List.mem_cons_of_mem n hm)) rfl rfl htof rfl
  rw [State.replyDone_eq_responseDone hrem] at payload
  rw [List.map_cons, List.sum_cons, blockMoves_add,
    blockMoves_monitorRead hseq (by rw [hseq]; rfl) hdins hsplit hfirst, State.afterMonitorPhase,
    State.afterResponseLength_awaits _ _ (hn.trans_le hreply)]
  exact ⟨tmr, payload⟩

/-! ### The transaction (41_transactions.md R150) -/

/-- The end of a Monitor transaction that sent its request and received the bytes `reply` with the
delays `waits`, the last phase leaving `tmr`. -/
def State.monitorDone (s : State) (waits : List Nat) (reply : List Byte) (rest : List Bool)
    (more : List Byte) (tmr : Count) : State :=
  { s with
    status := s.status.finished true .none
    seq := .idle
    dir := .drive
    attn := false
    ack := false
    dout := s.ll
    rlen := BitVec.ofNat 8 reply.length
    msgLen := BitVec.ofNat 8 reply.length
    monT := storeFrom s.monT 0 (waits.map (remainder s.build))
    msgBuf := storeFrom s.msgBuf 0 reply
    tmr := tmr
    strobes := rest
    dins := more
    trace := s.trace ++
      (List.zipWith writePhase (waits.take 5) (monitorRequest s.la s.ll)).flatten ++ [.dirSense] ++
      (List.zipWith readPhase (waits.drop 5) (BitVec.ofNat 8 reply.length :: reply)).flatten ++
      [.dirDrive, .attnOff] }

theorem State.responseDone_eq_monitorDone {s : State} {c : MonCmd} {req resp : List Nat}
    {reply more : List Byte} {bs rest : List Bool} {tmr : Count} (hreq : req.length = 5) :
    (s.requestSent c 0 req (monitorRequest s.la s.ll) bs).responseDone resp reply rest more tmr =
      s.monitorDone (req ++ resp) reply rest more tmr := by
  have hslots := storeFrom_append s.monT 0 (req.map (remainder s.build))
    (resp.map (remainder s.build))
  rw [List.length_map, hreq, Nat.zero_add] at hslots
  simp [State.responseDone, State.monitorDone, State.requestSent, hslots, List.take_left' hreq,
    List.drop_left' hreq]

theorem blockMoves_monitor {s : State} {c : MonCmd} {waits : List Nat} {reply more : List Byte}
    {rest : List Bool} (hseq : s.seq = .monitor c (.addr 0)) (htmr : s.tmr = s.ceil)
    (htof : s.tof = false) (hreply : reply.length ≤ 8) (hlen : waits.length = 6 + reply.length)
    (hwaits : ∀ n ∈ waits, n < s.ceil.toNat) (hstrobes : s.strobes = strobesAfter waits ++ rest)
    (hdins : s.dins = BitVec.ofNat 8 reply.length :: reply ++ more) :
    ∃ tmr, blockMoves (waits.map (· + 1)).sum s = s.monitorDone waits reply rest more tmr := by
  obtain ⟨req, n, ws, rfl, hreq⟩ : ∃ req n ws, waits = req ++ n :: ws ∧ req.length = 5 := by
    have hdrop := List.drop_eq_getElem_cons (i := 5) (l := waits) (by omega)
    exact ⟨waits.take 5, _, _, by rw [← hdrop, List.take_append_drop],
      List.length_take_of_le (by omega)⟩
  rw [List.length_append, List.length_cons, hreq] at hlen
  rw [strobesAfter_append, List.append_assoc] at hstrobes
  have request := blockMoves_request hseq (by rw [hseq]; rfl) htmr
    ((Nat.zero_add _).trans hreq) (fun m hm => hwaits m (List.mem_append_left _ hm)) hstrobes
  obtain ⟨tmr, response⟩ :=
    blockMoves_response (n := n) (ws := ws) (c := c)
      (s := s.requestSent c 0 req (monitorRequest s.la s.ll) (strobesAfter (n :: ws) ++ rest))
      rfl rfl htof hreply (by omega) (fun m hm => hwaits m (List.mem_append_right _ hm)) rfl hdins
  rw [State.responseDone_eq_monitorDone hreq] at response
  rw [List.map_append, List.sum_append, blockMoves_add, request]
  exact ⟨tmr, response⟩

/-- The accept of a command that runs a Monitor transaction starts it (41_transactions.md R140, R157,
R158, 42_dispatch.md R180, R182). -/
theorem exec_runsMonitor {i : Instr} {s : State} (hready : TransactionReady s)
    (hi : runsMonitor i s.msgDir = true) :
    ∃ c quiet, exec i s = .next ((s.accepted i).latch.startMonitor c quiet) := by
  obtain ⟨hidle, hlines, hlen⟩ := hready
  have hcheck := State.txnCheck_none.mpr ⟨hlines, hlen⟩
  cases i with
  | mon => exact ⟨.mon, false, by rw [exec_mon, hcheck, State.accept_runs _ _ _ hidle]⟩
  | monQ => exact ⟨.monQ, true, by rw [exec_monQ, hcheck, State.accept_runs _ _ _ hidle]⟩
  | monRetry =>
    exact ⟨.monRetry, true, by rw [exec_monRetry, hcheck, State.accept_runs _ _ _ hidle]⟩
  | fwd e =>
    have hdir : s.msgDir = .monitor := by simpa [runsMonitor] using hi
    exact ⟨.fwd e, true, by rw [exec_fwd_monitor e s hdir, hcheck, State.accept_runs _ _ _ hidle]⟩
  | _ => simp [runsMonitor] at hi

/-- Settles O38: the accept starts address phase 0, and from there the request goes out and the
response comes in to the transaction's end, which is the command's, `TOF` being 0. -/
theorem monitorDeliversTheReply : Obligations.MonitorDeliversTheReply := by
  unfold Obligations.MonitorDeliversTheReply
  intro i s waits rest reply more hready hi hreply hlen hwaits hstrobes hdins
  obtain ⟨c, quiet, hexec⟩ := exec_runsMonitor hready hi
  obtain ⟨tmr, hrun⟩ :=
    blockMoves_monitor (s := (s.accepted i).latch.startMonitor c quiet) rfl rfl rfl hreply hlen
      hwaits hstrobes hdins
  refine ⟨_, _, hexec, hrun, rfl, rfl, rfl, rfl, rfl, fun k => ?slots, rfl, rfl, fun j => ?buffer,
    ⟨rfl, rfl⟩, ?frame⟩
  case slots =>
    refine (getElem_storeFrom_remainders s.build waits k).trans ?_
    cases waits[k.val]? <;> rfl
  case buffer => exact getElem_storeFrom s.msgBuf 0 reply j.val j.isLt
  case frame => simp [State.monitorDone]

end Sys2Proof.Machine

/-! The raw line commands XFER, SETDIR and SETATTN (40_transfer_primitive.md R118 to R120), and the machine's
run of one phase, for every behaviour of the peer, as the pseudocode's `Exchange` (R110). -/

namespace Sys2Proof.Machine

/-! ### Rejects (60_exceptions.md R221) -/

theorem acceptRejects_of_reject {i : Instr} {s : State} {code : ErrCode}
    (h : exec i s = .next ((s.takeCommand (encode i)).reject code)) : AcceptRejects i s code :=
  ⟨s.la, s.ll, h⟩

theorem acceptRejects_lineState {i : Instr} {s : State} (hi : isTransaction i = true)
    (hidle : s.status.busy = false) (hlines : ¬ LinesDefault s) : AcceptRejects i s .lineState :=
  acceptRejects_of_reject (exec_transaction_rejected hi hidle (State.txnCheck_lines hlines))

/-! ### The one-step commands (R119, R120) -/

/-- Settles O19: the accept has no check to fail, and runs the rule of the operand's value. -/
theorem setdirSetsTheDirection : Obligations.SetdirSetsTheDirection := by
  unfold Obligations.SetdirSetsTheDirection
  refine ⟨⟨rfl, rfl⟩, fun s d hidle => ⟨?runs, fun hsense i hi => ?rejects⟩⟩
  case runs =>
    rw [exec_setdir, State.accept_runs _ _ _ hidle]
    cases d with
    | drive => rfl
    | sense => rfl
  case rejects =>
    refine acceptRejects_lineState hi hidle fun hlines => ?_
    rw [hlines.1] at hsense
    cases hsense

theorem State.linesByte_attn (s : State) (strobe : Bool) :
    (s.linesByte strobe).getLsbD 0 = s.attn := by
  rw [State.linesByte, BitVec.getLsbD_append]
  simp

/-- Settles O20: the accept has no check to fail, and runs the rule of the operand's value. -/
theorem setattnSetsTheAttention : Obligations.SetattnSetsTheAttention := by
  unfold Obligations.SetattnSetsTheAttention
  refine ⟨⟨rfl, rfl⟩, fun s level hidle =>
    ⟨?runs, State.linesByte_attn _, fun hattn i hi => ?rejects⟩⟩
  case runs =>
    rw [exec_setattn, State.accept_runs _ _ _ hidle]
    cases level with
    | true => rfl
    | false => rfl
  case rejects =>
    refine acceptRejects_lineState hi hidle fun hlines => ?_
    rw [hlines.2] at hattn
    cases hattn

/-! ### The polling loop (R110) -/

theorem pollLoop_seen {s : State} (n : Nat) (hstrobe : s.strobe = true) :
    pollLoop (n + 1) s = s.strobeTaken.emit (.poll true) := by
  simp [pollLoop, hstrobe]

theorem pollLoop_failed {s : State} {n : Nat} (hstrobe : s.strobe = false)
    (htmr : s.tmr.toNat = n + 1) :
    pollLoop (n + 1) s = pollLoop n (s.strobeTaken.emit (.poll false)).countDown := by
  have hcount : (s.strobeTaken.emit (.poll false)).tmr - 1 = BitVec.ofNat 16 n := by
    rw [State.emit_tmr, State.strobeTaken_tmr]
    bv_omega
  rw [pollLoop, hstrobe, ← hcount]
  rfl

/-- Whatever the peer's draws are, the moves of a phase make the polls of the loop and then end the
phase. -/
theorem blockMoves_pollLoop {s : State} {n : Nat} (hrun : s.seq ≠ .idle) (htmr : s.tmr.toNat = n)
    (hpos : 1 ≤ n) : ∃ k, 1 ≤ k ∧ k ≤ n ∧ blockMoves k s = (pollLoop n s).endPhase := by
  induction n generalizing s with
  | zero => omega
  | succ n ih =>
    have hmove := s.blockMove_running hrun
    obtain ⟨hstrobe, hcount, hwaits⟩ | ⟨hstrobe, hseen⟩ | ⟨hstrobe, hcount, htimeout⟩ :=
      s.pollMove_cases
    · rw [hwaits] at hmove
      obtain ⟨k, -, hk, hlater⟩ := ih (s := s.blockMove) (by simpa [hmove] using hrun)
        (by simp only [hmove, State.countDown_tmr, State.emit_tmr, State.strobeTaken_tmr]; bv_omega)
        (by bv_omega)
      rw [pollLoop_failed hstrobe htmr, ← hmove]
      exact ⟨k + 1, by omega, by omega, hlater⟩
    · rw [pollLoop_seen n hstrobe, ← hseen, ← hmove]
      exact ⟨1, le_rfl, by omega, rfl⟩
    · obtain rfl : n = 0 := by bv_omega
      rw [pollLoop_failed hstrobe htmr, pollLoop, ← htimeout, ← hmove]
      exact ⟨1, le_rfl, le_rfl, rfl⟩

/-- The polls of a phase use up draws, count down and record events, and do nothing else. -/
theorem pollLoop_shape (n : Nat) (s : State) :
    ∃ l d c tr, pollLoop n s = { s with strobes := l, draws := d, tmr := c, trace := tr } := by
  induction n generalizing s with
  | zero => exact ⟨_, _, _, _, rfl⟩
  | succ n ih =>
    obtain ⟨l, d, htaken⟩ := s.strobeTaken_shape
    rw [pollLoop, htaken]
    split
    · exact ⟨_, _, _, _, rfl⟩
    · obtain ⟨l', d', c', tr', hlater⟩ := ih _
      exact ⟨l', d', c', tr', hlater⟩

/-- The state in another place of the sequencer. The pseudocode knows no `SEQ`, so this is where a phase of
the machine and the same phase of the pseudocode differ. -/
def State.inPlace (s : State) (place : Seq) : State := { s with seq := place }

theorem State.strobeTaken_inPlace (s : State) (place : Seq) :
    (s.inPlace place).strobeTaken = s.strobeTaken.inPlace place := by
  unfold State.strobeTaken
  cases h : s.strobes <;> simp [State.inPlace, h]

theorem State.dinTaken_inPlace (s : State) (place : Seq) :
    (s.inPlace place).dinTaken = s.dinTaken.inPlace place := by
  unfold State.dinTaken
  cases h : s.dins <;> simp [State.inPlace, h]

theorem pollLoop_inPlace (n : Nat) (s : State) (place : Seq) :
    pollLoop n (s.inPlace place) = (pollLoop n s).inPlace place := by
  induction n generalizing s with
  | zero => rfl
  | succ n ih =>
    have hstrobe : (s.inPlace place).strobe = s.strobe := rfl
    rw [pollLoop, pollLoop, State.strobeTaken_inPlace, hstrobe]
    split
    · rfl
    · exact ih { s.strobeTaken.emit (.poll s.strobe) with tmr := BitVec.ofNat 16 n }

/-! ### The end of a phase (R110, R112) -/

/-- `TO` set where the phase timed out. -/
def State.timeoutMarked (s : State) : State := if s.phaseOk then s else s.markTimeout

theorem State.timeoutMarked_inPlace (s : State) (place : Seq) :
    (s.inPlace place).timeoutMarked = s.timeoutMarked.inPlace place := by
  have hok : (s.inPlace place).phaseOk = s.phaseOk := rfl
  rw [State.timeoutMarked, State.timeoutMarked, hok]
  split <;> rfl

theorem State.timeoutMarked_byteOut (s : State) : s.timeoutMarked.byteOut = s.byteOut := by
  unfold State.timeoutMarked
  split <;> rfl

theorem State.timeoutMarked_tmr (s : State) : s.timeoutMarked.tmr = s.tmr := by
  unfold State.timeoutMarked
  split <;> rfl

theorem State.timeoutMarked_din (s : State) : s.timeoutMarked.din = s.din := by
  unfold State.timeoutMarked
  split <;> rfl

section

variable {s : State}

theorem State.endExchange_skipped (hleg : s.legPerformed = false) :
    s.endExchange = s.timeoutMarked := if_neg (Bool.eq_false_iff.mp hleg)

theorem State.endExchange_performed (hleg : s.legPerformed = true) :
    s.endExchange = s.timeoutMarked.dataLeg := if_pos hleg

theorem State.dataLeg_write (hmode : s.seq.mode = .write) :
    s.dataLeg = (s.driveByte s.byteOut).pulseAck := by
  rw [State.dataLeg, hmode]

theorem State.dataLeg_read (hmode : s.seq.mode = .read) : s.dataLeg = s.senseByte.pulseAck := by
  rw [State.dataLeg, hmode]

theorem State.captured_write (hmode : s.seq.mode = .write) : s.captured = none := by
  rw [State.captured, hmode]

theorem State.captured_read (hmode : s.seq.mode = .read) (hleg : s.legPerformed = true) :
    s.captured = some s.din := by
  rw [State.captured, hmode]
  exact if_pos hleg

theorem State.captured_skipped (hleg : s.legPerformed = false) : s.captured = none := by
  unfold State.captured
  split
  · rfl
  · exact if_neg (Bool.eq_false_iff.mp hleg)

end

/-! ### The pseudocode's exchange (R110) -/

/-- The state of the pseudocode's exchange after its last poll. -/
def State.polled (s : State) : State := pollLoop s.ceil.toNat { s with tmr := s.ceil }

theorem State.polled_shape (s : State) :
    ∃ l d c tr, s.polled = { s with strobes := l, draws := d, tmr := c, trace := tr } :=
  pollLoop_shape s.ceil.toNat { s with tmr := s.ceil }

theorem State.polled_byteOut (s : State) (place : Seq) :
    (s.polled.inPlace place).byteOut = (s.inPlace place).byteOut := by
  obtain ⟨l, d, c, tr, h⟩ := s.polled_shape
  rw [h]
  rfl

theorem State.polled_legPerformed (s : State) :
    s.polled.legPerformed = (s.polled.phaseOk || s.build.ackOnTimeout) := by
  obtain ⟨l, d, c, tr, h⟩ := s.polled_shape
  rw [State.legPerformed, h]

section

variable {s : State}

theorem wholeExchange_skipped (mode : Mode) (b : Byte) (hleg : s.polled.legPerformed = false) :
    wholeExchange mode b s =
      { ok := s.polled.phaseOk, t := s.polled.tmr, v := none, state := s.polled.timeoutMarked } := by
  rw [State.polled_legPerformed] at hleg
  exact if_neg (Bool.eq_false_iff.mp hleg)

theorem wholeExchange_write (b : Byte) (hleg : s.polled.legPerformed = true) :
    wholeExchange .write b s =
      { ok := s.polled.phaseOk, t := s.polled.tmr, v := none
        state := (s.polled.timeoutMarked.driveByte b).pulseAck } := by
  rw [State.polled_legPerformed] at hleg
  exact if_pos hleg

theorem wholeExchange_read (b : Byte) (hleg : s.polled.legPerformed = true) :
    wholeExchange .read b s =
      { ok := s.polled.phaseOk, t := s.polled.tmr, v := some s.polled.din
        state := (s.polled.timeoutMarked.dinTaken.emit (.sense s.polled.din)).pulseAck } := by
  rw [State.polled_legPerformed] at hleg
  exact if_pos hleg

theorem wholeExchange_t (mode : Mode) (b : Byte) (s : State) :
    (wholeExchange mode b s).t = (wholeExchange mode b s).state.tmr := by
  cases hleg : s.polled.legPerformed with
  | false => simp [wholeExchange_skipped mode b hleg, State.timeoutMarked_tmr]
  | true =>
    cases mode with
    | write => simp [wholeExchange_write b hleg, State.timeoutMarked_tmr]
    | read => simp [wholeExchange_read b hleg, State.timeoutMarked_tmr]

end

/-- The end of a phase of the machine, after the pseudocode's polls, is the end of the pseudocode's exchange
in every part: the result, the captured byte and the state. -/
theorem endPhase_eq_wholeExchange {s : State} {place : Seq} {b : Byte}
    (hbyte : place.mode = .write → (s.inPlace place).byteOut = b) :
    (s.polled.inPlace place).endPhase =
      ((wholeExchange place.mode b s).state.inPlace place).afterExchange
        (wholeExchange place.mode b s).ok (wholeExchange place.mode b s).v := by
  have hmarked := s.polled.timeoutMarked_inPlace place
  rw [State.endPhase]
  cases hleg : s.polled.legPerformed with
  | false =>
    have hleg' : (s.polled.inPlace place).legPerformed = false := hleg
    rw [State.endExchange_skipped hleg', State.captured_skipped hleg', hmarked,
      wholeExchange_skipped _ b hleg]
    rfl
  | true =>
    have hleg' : (s.polled.inPlace place).legPerformed = true := hleg
    rw [State.endExchange_performed hleg', hmarked]
    cases hmode : place.mode with
    | write =>
      have hsent : (s.polled.timeoutMarked.inPlace place).byteOut = b := by
        rw [← hmarked, State.timeoutMarked_byteOut, State.polled_byteOut, hbyte hmode]
      rw [State.captured_write hmode, State.dataLeg_write hmode, hsent, wholeExchange_write b hleg]
      rfl
    | read =>
      have hsensed : (s.polled.timeoutMarked.inPlace place).din = s.polled.din :=
        s.polled.timeoutMarked_din
      rw [State.captured_read hmode hleg', State.dataLeg_read hmode, State.senseByte, hsensed,
        State.dinTaken_inPlace, wholeExchange_read b hleg]
      rfl

/-- A phase of the machine, whatever the peer's draws are, is the pseudocode's exchange, in at least one and
at most `CEIL` moves, and then what its command does next. -/
theorem blockMoves_exchange {s : State} {place : Seq} {b : Byte} (hrun : place ≠ .idle)
    (hbyte : place.mode = .write → (s.inPlace place).byteOut = b) :
    ∃ k, 1 ≤ k ∧ k ≤ s.ceil.toNat ∧ blockMoves k (s.startPhase place) =
      ((wholeExchange place.mode b s).state.inPlace place).afterExchange
        (wholeExchange place.mode b s).ok (wholeExchange place.mode b s).v := by
  obtain ⟨k, hpos, hbound, hmoves⟩ :=
    blockMoves_pollLoop (s := s.startPhase place) hrun rfl s.ceil_toNat_pos
  have hpolled : pollLoop s.ceil.toNat (s.startPhase place) = s.polled.inPlace place :=
    pollLoop_inPlace _ { s with tmr := s.ceil } place
  refine ⟨k, hpos, hbound, ?_⟩
  rw [← endPhase_eq_wholeExchange hbyte, ← hpolled]
  exact hmoves

/-! ### XFER (R118) -/

/-- The byte that the pseudocode of XFER hands to its exchange. -/
def xferByte (m : Mode) (s : State) : Byte :=
  match m with
  | .write => s.cmdArg
  | .read => 0

/-- What the pseudocode of XFER does with the results of its exchange. -/
def xferEnd (e : Exchanged) : State :=
  let stored := match e.v with
    | some b => { e.state with xferData := b }
    | none => e.state
  let timed := { stored with xferT := e.t }
  if e.ok then timed.finish true .none else timed.finish false .peerTimeout

theorem wholeXfer_eq_xferEnd (m : Mode) (s : State) :
    wholeXfer m s = xferEnd (wholeExchange m (xferByte m s) s) := by
  cases m <;> rfl

theorem xferEnd_seq (e : Exchanged) : (xferEnd e).seq = .idle := by
  unfold xferEnd
  dsimp only
  split <;> rfl

theorem endXfer_eq_xferEnd {e : Exchanged} (place : Seq) (ht : e.t = e.state.tmr) :
    (e.state.inPlace place).endXfer e.ok e.v = xferEnd e := by
  unfold State.endXfer xferEnd
  rw [ht]
  cases e.v <;> cases e.ok <;> rfl

/-- Settles O32: the accept starts the phase `X`, which is the exchange of the pseudocode, and the command's
end stores its results as the pseudocode does. -/
theorem xferRunsItsPseudocode : Obligations.XferRunsItsPseudocode := by
  unfold Obligations.XferRunsItsPseudocode
  refine ⟨⟨rfl, rfl⟩, fun s m hidle => ⟨fun hdir => ?rejects, fun hdir => ?runs⟩⟩
  case rejects =>
    refine acceptRejects_of_reject ?_
    rw [exec_xfer, State.xferCheck_wrong hdir, State.accept_rejected _ _ _ _ hidle]
  case runs =>
    have hexec : exec (.xfer m) s = .next ((s.accepted (.xfer m)).startPhase (.xfer m)) := by
      rw [exec_xfer, State.xferCheck_none.mpr hdir, State.accept_runs _ _ _ hidle]
    obtain ⟨k, hpos, hbound, hmoves⟩ :=
      blockMoves_exchange (s := s.accepted (.xfer m)) (place := .xfer m)
        (b := xferByte m (s.accepted (.xfer m))) (by simp) fun hmode => by
          obtain rfl : m = .write := hmode
          rfl
    refine ⟨_, k, hexec, hpos, hbound, hmoves.trans ?_, ?_⟩
    · rw [wholeXfer_eq_xferEnd]
      exact endXfer_eq_xferEnd (.xfer m) (wholeExchange_t _ _ _)
    · rw [wholeXfer_eq_xferEnd, xferEnd_seq]

end Sys2Proof.Machine

/-! The Control transaction, and CTRL, for every behaviour of the peer (41_transactions.md R142): the machine
runs the pseudocode phase by phase. -/

namespace Sys2Proof.Machine

/-! ### Runs counted in phases (40_transfer_primitive.md R111) -/

theorem blockMoves_build (n : Nat) (s : State) : (blockMoves n s).build = s.build := by
  induction n generalizing s with
  | zero => rfl
  | succ n ih => exact (ih s.blockMove).trans s.blockMove_build

/-- The block's own moves lead from `s` to `t` in at most the time of `phases` phases, `CEIL` polls each. -/
def ReachedIn (phases : Nat) (s t : State) : Prop :=
  ∃ k, k ≤ phases * s.ceil.toNat ∧ blockMoves k s = t

theorem ReachedIn.refl (phases : Nat) (s : State) : ReachedIn phases s s :=
  ⟨0, Nat.zero_le _, rfl⟩

theorem ReachedIn.mono {m n : Nat} {s t : State} (h : ReachedIn m s t) (hle : m ≤ n) :
    ReachedIn n s t := by
  obtain ⟨k, hk, hmoves⟩ := h
  exact ⟨k, hk.trans (Nat.mul_le_mul_right _ hle), hmoves⟩

theorem ReachedIn.trans {m n : Nat} {s t u : State} (hst : ReachedIn m s t) (htu : ReachedIn n t u) :
    ReachedIn (m + n) s u := by
  obtain ⟨j, hj, rfl⟩ := hst
  obtain ⟨k, hk, rfl⟩ := htu
  rw [State.ceil, blockMoves_build] at hk
  exact ⟨j + k, (Nat.add_mul ..).symm ▸ Nat.add_le_add hj hk, blockMoves_add j k s⟩

/-- An accepted command that reaches its end has made at least one move, since it was running. -/
theorem runsTo_of_reachedIn {i : Instr} {s t0 t : State} {phases : Nat} (hexec : exec i s = .next t0)
    (hrun : t0.seq ≠ .idle) (hreached : ReachedIn phases t0 t) (hend : t.seq = .idle) :
    RunsTo i s (phases * s.ceil.toNat) t := by
  obtain ⟨k, hbound, hmoves⟩ := hreached
  rw [State.ceil, exec_build hexec] at hbound
  have hpos : 1 ≤ k := Nat.one_le_iff_ne_zero.mpr fun hzero => by
    subst hzero
    exact hrun ((congrArg State.seq hmoves).trans hend)
  exact ⟨t0, k, hexec, hpos, hbound, hmoves, hend⟩

/-! ### The accept checks of a transaction (41_transactions.md R140) -/

theorem rejectedUnlessReady_of_idle {i : Instr} {s : State} (hi : isTransaction i = true)
    (hidle : s.status.busy = false) : RejectedUnlessReady i s :=
  ⟨acceptRejects_lineState hi hidle, fun hlines hlen => acceptRejects_of_reject
    (exec_transaction_rejected hi hidle (State.txnCheck_length hlines hlen))⟩

/-! ### What an exchange of the pseudocode leaves unchanged (40_transfer_primitive.md R110) -/

/-- An exchange uses up draws, counts down, records events, may set `TO`, and moves `DOUT` and `ACK`. -/
theorem wholeExchange_shape (mode : Mode) (b : Byte) (s : State) :
    ∃ l ds d c tr st o a, (wholeExchange mode b s).state =
      { s with
        strobes := l, dins := ds, draws := d, tmr := c, trace := tr
        status := st, dout := o, ack := a } := by
  obtain ⟨l, d, c, tr, hpolled⟩ := s.polled_shape
  obtain ⟨st, hmarked⟩ : ∃ st, s.polled.timeoutMarked = { s.polled with status := st } := by
    unfold State.timeoutMarked
    split
    · exact ⟨_, rfl⟩
    · exact ⟨_, rfl⟩
  cases hleg : s.polled.legPerformed with
  | false =>
    rw [wholeExchange_skipped mode b hleg, hmarked, hpolled]
    exact ⟨_, _, _, _, _, _, _, _, rfl⟩
  | true =>
    cases mode with
    | write =>
      rw [wholeExchange_write b hleg, hmarked, hpolled]
      exact ⟨_, _, _, _, _, _, _, _, rfl⟩
    | read =>
      obtain ⟨ds, d', htaken⟩ := s.polled.timeoutMarked.dinTaken_shape
      rw [wholeExchange_read b hleg, htaken, hmarked, hpolled]
      exact ⟨_, _, _, _, _, _, _, _, rfl⟩

section

variable (mode : Mode) (b : Byte) (s : State) (slot : Fin 13)

theorem wholeCtlPhase_la : (wholeCtlPhase slot b s).state.la = s.la := by
  obtain ⟨_, _, _, _, _, _, _, _, h⟩ := wholeExchange_shape .write b s
  rw [wholeCtlPhase, h]

theorem wholeCtlPhase_ll : (wholeCtlPhase slot b s).state.ll = s.ll := by
  obtain ⟨_, _, _, _, _, _, _, _, h⟩ := wholeExchange_shape .write b s
  rw [wholeCtlPhase, h]

end

/-! ### A phase of a Control transaction (41_transactions.md R141, R142) -/

section

variable {s : State} {c : CtlCmd} {b : Byte}

theorem State.startPhase_inPlace (s : State) (place next : Seq) :
    (s.inPlace place).startPhase next = s.startPhase next := rfl

theorem State.attnOff_finish_inPlace (s : State) (place : Seq) :
    (s.inPlace place).attnOff.finish false .peerTimeout = s.attnOff.finish false .peerTimeout := rfl

theorem wholeCtlPhase_ok (slot : Fin 13) (b : Byte) (s : State) :
    (wholeCtlPhase slot b s).ok = (wholeExchange .write b s).ok := by
  rw [wholeCtlPhase]

theorem recordControl_wholeExchange {ph : CtlPhase} {slot : Fin 13} (place : Seq)
    (hslot : ph.slot = slot) :
    ((wholeExchange .write b s).state.inPlace place).recordControl ph =
      (wholeCtlPhase slot b s).state.inPlace place := by
  rw [wholeCtlPhase, wholeExchange_t, ← hslot]
  rfl

theorem reachedIn_controlPhase {ph : CtlPhase} (slot : Fin 13)
    (hbyte : (s.inPlace (.control c ph)).byteOut = b) :
    ReachedIn 1 (s.startPhase (.control c ph))
      (((wholeExchange .write b s).state.inPlace (.control c ph)).afterControlPhase c ph
        (wholeCtlPhase slot b s).ok) := by
  obtain ⟨k, -, hbound, hmoves⟩ :=
    blockMoves_exchange (s := s) (place := .control c ph) (by simp) fun _ => hbyte
  rw [wholeCtlPhase_ok]
  exact ⟨k, hbound.trans_eq (Nat.one_mul _).symm, hmoves⟩

theorem State.afterControlPhase_abort (s : State) (c : CtlCmd) :
    s.afterControlPhase c (.addr 0) false =
      (s.recordControl (.addr 0)).attnOff.finish false .peerTimeout := rfl

theorem reachedIn_controlAbort (hbyte : byteOf s.la 0 = b) (hok : (wholeCtlPhase 0 b s).ok = false) :
    ReachedIn 1 (s.startPhase (.control c (.addr 0)))
      ((wholeCtlPhase 0 b s).state.attnOff.finish false .peerTimeout) := by
  have hphase := reachedIn_controlPhase (c := c) (ph := .addr 0) 0 hbyte
  rw [hok, State.afterControlPhase_abort, recordControl_wholeExchange _ rfl,
    State.attnOff_finish_inPlace] at hphase
  exact hphase

/-- Only a timeout of address phase 0 keeps a Control transaction from its next phase. -/
theorem State.afterControlPhase_goesOn {ph : CtlPhase} {ok : Bool} (s : State) (c : CtlCmd)
    (hgo : ph = .addr 0 → ok = true) :
    s.afterControlPhase c ph ok = s.afterControlPhase c ph true := by
  cases ok with
  | true => rfl
  | false =>
    have hlater : ¬ ph = .addr 0 := fun h => by cases hgo h
    simp [State.afterControlPhase, hlater]

theorem reachedIn_controlAddr {k : Fin 4} {ph : CtlPhase} {slot : Fin 13}
    (hslot : (CtlPhase.addr k).slot = slot) (hbyte : byteOf s.la k = b)
    (hgo : k = 0 → (wholeCtlPhase slot b s).ok = true)
    (hnext : ∀ ll, (CtlPhase.addr k).next ll = some ph) :
    ReachedIn 1 (s.startPhase (.control c (.addr k)))
      ((wholeCtlPhase slot b s).state.startPhase (.control c ph)) := by
  have hphase := reachedIn_controlPhase (c := c) (ph := .addr k) slot hbyte
  rw [State.afterControlPhase_goesOn _ _ fun h => hgo (CtlPhase.addr.inj h),
    State.afterControlPhase_next _ (hnext _), recordControl_wholeExchange _ hslot,
    State.startPhase_inPlace] at hphase
  exact hphase

end

/-! ### The payload loops (41_transactions.md R142, R150) -/

/-- The indices of a payload of length `n` from `i` on. -/
def payloadIndices (i : Nat) (n : Byte) : List (Fin 8) := ((List.finRange 8).take n.toNat).drop i

theorem payloadIndices_cons {i : Nat} {n : Byte} (h : i < 8 ∧ i < n.toNat) :
    payloadIndices i n = ⟨i, h.1⟩ :: payloadIndices (i + 1) n := by
  unfold payloadIndices
  rw [List.drop_eq_getElem_cons (by simp; omega)]
  simp

theorem payloadIndices_nil {i : Nat} {n : Byte} (h : ¬ (i < 8 ∧ i < n.toNat)) :
    payloadIndices i n = [] :=
  List.drop_eq_nil_of_le (by simp; omega)

/-- How a Control transaction goes on with `i` payload bytes sent (R142). -/
def State.awaitControlPayload (s : State) (c : CtlCmd) (i : Nat) : State :=
  if h : i < 8 ∧ i < s.ll.toNat then s.startPhase (.control c (.payload ⟨i, h.1⟩)) else s.endControl

theorem State.awaitControlPayload_inPlace (s : State) (place : Seq) (c : CtlCmd) (i : Nat) :
    (s.inPlace place).awaitControlPayload c i = s.awaitControlPayload c i := rfl

theorem State.afterControlPhase_len (s : State) (c : CtlCmd) (ok : Bool) :
    s.afterControlPhase c .len ok = (s.recordControl .len).awaitControlPayload c 0 := by
  by_cases hempty : s.ll = 0
  · simp [State.afterControlPhase, State.awaitControlPayload, CtlPhase.next, firstPayload, hempty]
  · have hpos : 0 < s.ll.toNat := by bv_omega
    have hfirst : firstPayload s.ll = some 0 := if_neg hempty
    simp [State.afterControlPhase, State.awaitControlPayload, CtlPhase.next, hfirst, hpos]

theorem State.afterControlPhase_payload (s : State) (c : CtlCmd) (i : Fin 8) (ok : Bool) :
    s.afterControlPhase c (.payload i) ok =
      (s.recordControl (.payload i)).awaitControlPayload c (i.val + 1) := by
  by_cases hmore : i.val + 1 < 8 ∧ i.val + 1 < s.ll.toNat
  · have hnext : nextPayload i s.ll = some ⟨i.val + 1, hmore.1⟩ := by
      simp [nextPayload, hmore]
    simp [State.afterControlPhase, State.awaitControlPayload, CtlPhase.next, hnext, hmore]
  · have hnext : nextPayload i s.ll = none := by
      unfold nextPayload
      split
      · exact if_neg fun hn => hmore ⟨‹_›, hn⟩
      · rfl
    simp [State.afterControlPhase, State.awaitControlPayload, CtlPhase.next, hnext, hmore]

/-- The rest of a Control transaction from payload byte `i` on, by recursion over the bytes still to send. -/
theorem reachedIn_controlPayload (s : State) (c : CtlCmd) (i : Nat) :
    ReachedIn (8 - i) (s.awaitControlPayload c i)
      (wholeControlPayload (payloadIndices i s.ll) s).endControl := by
  by_cases hmore : i < 8 ∧ i < s.ll.toNat
  · have hphase := reachedIn_controlPhase (s := s) (c := c) (ph := .payload ⟨i, hmore.1⟩)
      (CtlPhase.payload ⟨i, hmore.1⟩).slot rfl
    rw [State.afterControlPhase_payload, recordControl_wholeExchange _ rfl,
      State.awaitControlPayload_inPlace] at hphase
    have hlater := reachedIn_controlPayload
      (wholeCtlPhase (CtlPhase.payload ⟨i, hmore.1⟩).slot s.msgBuf[i] s).state c (i + 1)
    rw [wholeCtlPhase_ll] at hlater
    rw [State.awaitControlPayload, dif_pos hmore, payloadIndices_cons hmore]
    exact (hphase.trans hlater).mono (by omega)
  · rw [State.awaitControlPayload, dif_neg hmore, payloadIndices_nil hmore]
    exact .refl _ _
termination_by 8 - i

theorem reachedIn_controlLen {s : State} {b : Byte} (c : CtlCmd) (hbyte : s.ll = b) :
    ReachedIn 9 (s.startPhase (.control c .len))
      (wholeControlPayload (payloadIndices 0 b) (wholeCtlPhase 4 b s).state).endControl := by
  have hphase := reachedIn_controlPhase (c := c) (ph := .len) 4 hbyte
  rw [State.afterControlPhase_len, recordControl_wholeExchange _ rfl,
    State.awaitControlPayload_inPlace] at hphase
  have hlater := reachedIn_controlPayload (wholeCtlPhase 4 b s).state c 0
  rw [wholeCtlPhase_ll, hbyte] at hlater
  exact hphase.trans hlater

/-! ### The transaction (41_transactions.md R142) -/

theorem wholeControlTxn_seq (s : State) : (wholeControlTxn s).seq = .idle := by
  unfold wholeControlTxn
  dsimp only
  split <;> rfl

/-- A Control transaction of the machine, whatever the peer's draws are, is the pseudocode's: aborted after
address phase 0, or all of its at most 13 phases. -/
theorem reachedIn_controlTxn (s : State) (c : CtlCmd) :
    ReachedIn 13 (s.startControl c) (wholeControlTxn s) := by
  unfold wholeControlTxn
  dsimp only
  split
  case isTrue hok => exact (reachedIn_controlAbort rfl hok).mono (by decide)
  case isFalse hok =>
    have hseen := Bool.eq_true_of_not_eq_false hok
    refine (reachedIn_controlAddr (k := 0) (ph := .addr 1) rfl rfl (fun _ => hseen) fun _ => rfl).trans <|
      (reachedIn_controlAddr (k := 1) (ph := .addr 2) rfl ?_ (by simp) fun _ => rfl).trans <|
      (reachedIn_controlAddr (k := 2) (ph := .addr 3) rfl ?_ (by simp) fun _ => rfl).trans <|
      (reachedIn_controlAddr (k := 3) (ph := .len) rfl ?_ (by simp) fun _ => rfl).trans <|
      reachedIn_controlLen c ?_
    · simp [wholeCtlPhase_la]
    · simp [wholeCtlPhase_la]
    · simp [wholeCtlPhase_la]
    · simp [wholeCtlPhase_ll]

/-- Settles O33: the accept starts the Control transaction, whose end is the command's. -/
theorem ctrlRunsItsPseudocode : Obligations.CtrlRunsItsPseudocode := by
  unfold Obligations.CtrlRunsItsPseudocode
  refine ⟨rfl, fun s hidle => ⟨rejectedUnlessReady_of_idle rfl hidle, fun hready => ?_⟩⟩
  obtain ⟨c, hexec⟩ := exec_runsControl hready (i := .ctrl) rfl
  exact runsTo_of_reachedIn hexec (by simp [State.startControl]) (reachedIn_controlTxn _ c)
    (wholeControlTxn_seq _)

end Sys2Proof.Machine

/-! The Monitor transaction, and MON and MON_Q, for every behaviour of the peer (41_transactions.md R150, R157,
R158): the machine runs the pseudocode phase by phase. -/

namespace Sys2Proof.Machine

/-! ### What a Monitor phase of the pseudocode leaves unchanged (41_transactions.md R141) -/

section

variable (slot : Fin 14) (mode : Mode) (b : Byte) (s : State)

theorem wholeMonPhase_la : (wholeMonPhase slot mode b s).state.la = s.la := by
  obtain ⟨_, _, _, _, _, _, _, _, h⟩ := wholeExchange_shape mode b s
  rw [wholeMonPhase, h]

theorem wholeMonPhase_ll : (wholeMonPhase slot mode b s).state.ll = s.ll := by
  obtain ⟨_, _, _, _, _, _, _, _, h⟩ := wholeExchange_shape mode b s
  rw [wholeMonPhase, h]

theorem wholeMonPhase_rlen : (wholeMonPhase slot mode b s).state.rlen = s.rlen := by
  obtain ⟨_, _, _, _, _, _, _, _, h⟩ := wholeExchange_shape mode b s
  rw [wholeMonPhase, h]

theorem wholeMonPhase_q : (wholeMonPhase slot mode b s).state.q = s.q := by
  obtain ⟨_, _, _, _, _, _, _, _, h⟩ := wholeExchange_shape mode b s
  rw [wholeMonPhase, h]

theorem wholeMonPhase_ok : (wholeMonPhase slot mode b s).ok = (wholeExchange mode b s).ok := by
  rw [wholeMonPhase]

theorem wholeMonPhase_v : (wholeMonPhase slot mode b s).v = (wholeExchange mode b s).v := by
  rw [wholeMonPhase]

/-- A read phase that saw the strobe has captured a byte. -/
theorem wholeMonPhase_captures (hok : (wholeMonPhase slot .read b s).ok = true) :
    ∃ n, (wholeMonPhase slot .read b s).v = some n := by
  cases hleg : s.polled.legPerformed with
  | true => exact ⟨s.polled.din, by rw [wholeMonPhase_v, wholeExchange_read b hleg]⟩
  | false =>
    rw [wholeMonPhase_ok, wholeExchange_skipped .read b hleg] at hok
    rw [State.legPerformed_of_phaseOk hok] at hleg
    cases hleg

end

/-! ### A phase of a Monitor transaction (41_transactions.md R141, R151, R152) -/

section

variable {s : State} {c : MonCmd} {b : Byte}

theorem recordMonitor_wholeExchange {ph : MonPhase} {slot : Fin 14} (mode : Mode) (place : Seq)
    (hslot : ph.slot = slot) :
    ((wholeExchange mode b s).state.inPlace place).recordMonitor ph =
      (wholeMonPhase slot mode b s).state.inPlace place := by
  rw [wholeMonPhase, wholeExchange_t, ← hslot]
  rfl

theorem reachedIn_monitorPhase {ph : MonPhase} {mode : Mode} (slot : Fin 14)
    (hmode : (Seq.monitor c ph).mode = mode)
    (hbyte : mode = .write → (s.inPlace (.monitor c ph)).byteOut = b) :
    ReachedIn 1 (s.startPhase (.monitor c ph))
      (((wholeExchange mode b s).state.inPlace (.monitor c ph)).afterMonitorPhase c ph
        (wholeMonPhase slot mode b s).ok (wholeMonPhase slot mode b s).v) := by
  subst hmode
  rw [wholeMonPhase_ok, wholeMonPhase_v]
  obtain ⟨k, -, hbound, hmoves⟩ :=
    blockMoves_exchange (s := s) (place := .monitor c ph) (by simp) hbyte
  exact ⟨k, hbound.trans_eq (Nat.one_mul _).symm, hmoves⟩

theorem State.overwriteMessage_inPlace (s : State) (place : Seq) :
    (s.inPlace place).overwriteMessage = s.overwriteMessage.inPlace place := by
  have htof : (s.inPlace place).tof = s.tof := rfl
  have hq : (s.inPlace place).q = s.q := rfl
  rw [State.overwriteMessage, State.overwriteMessage, htof, hq]
  split <;> rfl

theorem State.endMonitor_inPlace (s : State) (place : Seq) (c : MonCmd) (cause : ErrCode) :
    (s.inPlace place).endMonitor c cause = s.endMonitor c cause := by
  rw [State.endMonitor, State.overwriteMessage_inPlace]
  rfl

theorem State.monitorEpilogue_inPlace (s : State) (place : Seq) (c : MonCmd) (cause : ErrCode) :
    (s.inPlace place).monitorEpilogue c cause = s.monitorEpilogue c cause :=
  State.endMonitor_inPlace s.dirDrive.attnOff place c cause

theorem State.afterRequestLength_inPlace (s : State) (place : Seq) (c : MonCmd) :
    (s.inPlace place).afterRequestLength c = s.afterRequestLength c := rfl

theorem State.afterMonitorAddr_abort (s : State) (c : MonCmd) :
    s.afterMonitorAddr c 0 false = s.markTof.attnOff.endMonitor c .peerTimeout := rfl

theorem State.markTof_inPlace (s : State) (place : Seq) :
    (s.inPlace place).markTof = s.markTof.inPlace place := rfl

theorem State.attnOff_inPlace (s : State) (place : Seq) :
    (s.inPlace place).attnOff = s.attnOff.inPlace place := rfl

theorem State.storeLength_inPlace (s : State) (place : Seq) (v : Option Byte) :
    (s.inPlace place).storeLength v = (s.storeLength v).inPlace place := rfl

theorem State.takeLength_inPlace (s : State) (place : Seq) :
    (s.inPlace place).takeLength = s.takeLength.inPlace place := rfl

theorem State.storePayload_inPlace (s : State) (place : Seq) (i : Fin 8) (v : Option Byte) :
    (s.inPlace place).storePayload i v = (s.storePayload i v).inPlace place := rfl

theorem reachedIn_monitorAbort (hbyte : byteOf s.la 0 = b)
    (hok : (wholeMonPhase 0 .write b s).ok = false) :
    ReachedIn 1 (s.startPhase (.monitor c (.addr 0)))
      ((wholeMonPhase 0 .write b s).state.markTof.attnOff.endMonitor c .peerTimeout) := by
  have hphase := reachedIn_monitorPhase (c := c) (ph := .addr 0) (mode := .write) 0 rfl fun _ => hbyte
  rw [hok, State.afterMonitorPhase, recordMonitor_wholeExchange _ _ rfl, State.afterMonitorAddr_abort,
    State.markTof_inPlace, State.attnOff_inPlace, State.endMonitor_inPlace] at hphase
  exact hphase

/-- Only a timeout of address phase 0 keeps a Monitor transaction from its next phase (R151). -/
theorem State.afterMonitorAddr_goesOn {k : Fin 4} {ok : Bool} (s : State) (c : MonCmd)
    (hgo : k = 0 → ok = true) : s.afterMonitorAddr c k ok = s.afterMonitorAddr c k true := by
  cases ok with
  | true => rfl
  | false =>
    have hlater : ¬ k = 0 := fun h => by cases hgo h
    simp [State.afterMonitorAddr, hlater]

theorem reachedIn_monitorAddr {k : Fin 4} {ph : MonPhase} {slot : Fin 14}
    (hslot : (MonPhase.addr k).slot = slot) (hbyte : byteOf s.la k = b)
    (hgo : k = 0 → (wholeMonPhase slot .write b s).ok = true)
    (hnext : ∀ t : State, t.afterMonitorAddr c k true = t.startPhase (.monitor c ph)) :
    ReachedIn 1 (s.startPhase (.monitor c (.addr k)))
      ((wholeMonPhase slot .write b s).state.startPhase (.monitor c ph)) := by
  have hphase := reachedIn_monitorPhase (c := c) (ph := .addr k) (mode := .write) slot rfl
    fun _ => hbyte
  rw [State.afterMonitorPhase, State.afterMonitorAddr_goesOn _ _ hgo, hnext,
    recordMonitor_wholeExchange _ _ hslot, State.startPhase_inPlace] at hphase
  exact hphase

theorem reachedIn_requestLength (hbyte : s.ll = b) :
    ReachedIn 1 (s.startPhase (.monitor c .rql))
      ((wholeMonPhase 4 .write b s).state.dirSense.startPhase (.monitor c .rsl)) := by
  have hphase := reachedIn_monitorPhase (c := c) (ph := .rql) (mode := .write) 4 rfl fun _ => hbyte
  rw [State.afterMonitorPhase, recordMonitor_wholeExchange _ _ rfl,
    State.afterRequestLength_inPlace] at hphase
  exact hphase

end

/-! ### The response payload (41_transactions.md R154) -/

theorem State.awaitPayload_inPlace (s : State) (place : Seq) (c : MonCmd) (i : Nat) :
    (s.inPlace place).awaitPayload c i = s.awaitPayload c i := by
  have hend := s.monitorEpilogue_inPlace place c .peerTimeout
  unfold State.awaitPayload
  rw [hend]
  rfl

theorem State.afterResponsePayload_timeout (s : State) (c : MonCmd) (i : Fin 8) (v : Option Byte) :
    s.afterResponsePayload c i false v = (s.storePayload i v).markTof.monitorEpilogue c .peerTimeout :=
  rfl

/-- The response payload loop stores a captured byte as the machine does. -/
theorem wholeResponsePayload_cons (i : Fin 8) (rest : List (Fin 8)) (s : State) :
    wholeResponsePayload (i :: rest) s =
      let e := wholeMonPhase (MonPhase.payload i).slot .read 0 s
      if e.ok then wholeResponsePayload rest (e.state.storePayload i e.v)
      else (e.state.storePayload i e.v).markTof := by
  rw [wholeResponsePayload]
  dsimp only [MonPhase.slot]
  cases (wholeMonPhase ⟨6 + i.val, by omega⟩ .read 0 s).v with
  | none => simp [State.storePayload, State.markTof]
  | some b => rfl

/-- The rest of a Monitor transaction from response byte `i` on, by recursion over the bytes still to
receive; a timeout ends it. -/
theorem reachedIn_responsePayload (s : State) (c : MonCmd) (i : Nat) :
    ReachedIn (8 - i) (s.awaitPayload c i)
      ((wholeResponsePayload (payloadIndices i s.rlen) s).monitorEpilogue c .peerTimeout) := by
  by_cases hmore : i < 8 ∧ i < s.rlen.toNat
  · have hphase := reachedIn_monitorPhase (s := s) (c := c) (ph := .payload ⟨i, hmore.1⟩)
      (mode := .read) (b := 0) (MonPhase.payload ⟨i, hmore.1⟩).slot rfl nofun
    rw [State.afterMonitorPhase, recordMonitor_wholeExchange _ _ rfl] at hphase
    rw [State.awaitPayload, dif_pos hmore, payloadIndices_cons hmore, wholeResponsePayload_cons]
    dsimp only
    split
    case isTrue hok =>
      rw [hok, State.afterResponsePayload_awaits, State.storePayload_inPlace,
        State.awaitPayload_inPlace] at hphase
      have hlater := reachedIn_responsePayload
        ((wholeMonPhase (MonPhase.payload ⟨i, hmore.1⟩).slot .read 0 s).state.storePayload
          ⟨i, hmore.1⟩ (wholeMonPhase (MonPhase.payload ⟨i, hmore.1⟩).slot .read 0 s).v) c (i + 1)
      rw [State.storePayload_rlen, wholeMonPhase_rlen] at hlater
      exact (hphase.trans hlater).mono (by omega)
    case isFalse hok =>
      rw [Bool.eq_false_iff.mpr hok, State.afterResponsePayload_timeout, State.storePayload_inPlace,
        State.markTof_inPlace, State.monitorEpilogue_inPlace] at hphase
      exact hphase.mono (by omega)
  · rw [State.awaitPayload, dif_neg hmore, payloadIndices_nil hmore]
    exact .refl _ _
termination_by 8 - i

/-! ### The response (41_transactions.md R153) -/

section

variable {s : State} {n : Byte}

theorem wholeResponse_timeout (hok : (wholeMonPhase 5 .read 0 s).ok = false) :
    wholeResponse s =
      (((wholeMonPhase 5 .read 0 s).state.storeLength (wholeMonPhase 5 .read 0 s).v).markTof,
        .peerTimeout) := by
  unfold wholeResponse
  generalize wholeMonPhase 5 .read 0 s = e at hok ⊢
  obtain ⟨ok, t, v, held⟩ := e
  cases v with
  | none => rfl
  | some n => exact if_pos hok

theorem wholeResponse_tooLong (hok : (wholeMonPhase 5 .read 0 s).ok = true)
    (hv : (wholeMonPhase 5 .read 0 s).v = some n) (hlong : 8 < n.toNat) :
    wholeResponse s =
      (((wholeMonPhase 5 .read 0 s).state.storeLength (some n)).markTof, .protocolViolation) := by
  unfold wholeResponse
  generalize wholeMonPhase 5 .read 0 s = e at hok hv ⊢
  simp [hv, hok, hlong, State.storeLength, State.markTof]

theorem wholeResponse_fits (hok : (wholeMonPhase 5 .read 0 s).ok = true)
    (hv : (wholeMonPhase 5 .read 0 s).v = some n) (hfits : n.toNat ≤ 8) :
    wholeResponse s =
      (wholeResponsePayload (payloadIndices 0 n)
        ((wholeMonPhase 5 .read 0 s).state.storeLength (some n)).takeLength, .peerTimeout) := by
  unfold wholeResponse
  generalize wholeMonPhase 5 .read 0 s = e at hok hv ⊢
  simp [hv, hok, hfits, State.storeLength, State.takeLength, payloadIndices]

theorem State.afterResponseLength_timeout (s : State) (c : MonCmd) (v : Option Byte) :
    s.afterResponseLength c false v = (s.storeLength v).markTof.monitorEpilogue c .peerTimeout := rfl

theorem State.afterResponseLength_tooLong (s : State) (c : MonCmd) (hlong : 8 < n.toNat) :
    s.afterResponseLength c true (some n) =
      (s.storeLength (some n)).markTof.monitorEpilogue c .protocolViolation := by
  have hrlen : 8 < (s.storeLength (some n)).rlen.toNat := hlong
  simp only [State.afterResponseLength, if_pos hrlen]
  rfl

end

theorem reachedIn_response (s : State) (c : MonCmd) :
    ReachedIn 9 (s.startPhase (.monitor c .rsl))
      ((wholeResponse s).1.monitorEpilogue c (wholeResponse s).2) := by
  have hphase :=
    reachedIn_monitorPhase (s := s) (c := c) (ph := .rsl) (mode := .read) (b := 0) 5 rfl nofun
  rw [State.afterMonitorPhase, recordMonitor_wholeExchange _ _ rfl] at hphase
  cases hok : (wholeMonPhase 5 .read 0 s).ok with
  | false =>
    rw [hok, State.afterResponseLength_timeout, State.storeLength_inPlace, State.markTof_inPlace,
      State.monitorEpilogue_inPlace] at hphase
    rw [wholeResponse_timeout hok]
    exact hphase.mono (by decide)
  | true =>
    obtain ⟨n, hv⟩ := wholeMonPhase_captures 5 0 s hok
    rw [hok, hv] at hphase
    by_cases hlong : 8 < n.toNat
    · rw [State.afterResponseLength_tooLong _ c hlong, State.storeLength_inPlace,
        State.markTof_inPlace, State.monitorEpilogue_inPlace] at hphase
      rw [wholeResponse_tooLong hok hv hlong]
      exact hphase.mono (by decide)
    · rw [State.afterResponseLength_awaits _ c (Nat.not_lt.mp hlong), State.storeLength_inPlace,
        State.takeLength_inPlace, State.awaitPayload_inPlace] at hphase
      rw [wholeResponse_fits hok hv (Nat.not_lt.mp hlong)]
      have hlater := reachedIn_responsePayload
        ((wholeMonPhase 5 .read 0 s).state.storeLength (some n)).takeLength c 0
      exact hphase.trans hlater

/-! ### The transaction (41_transactions.md R150) -/

/-- The state in which `MonitorTxn(q)` makes its first exchange. -/
def State.monitorBegun (s : State) (quiet : Bool) : State :=
  { s with
    q := quiet
    tof := false
    attempts := s.attempts + 1
    monT := Vector.replicate 14 0 }.attnOn

/-- `MonitorTxn` from its first exchange to the end of its epilogue, before the timeout overwrite. -/
def wholeMonitorBody (s : State) : State × ErrCode :=
  let e0 := wholeMonPhase 0 .write (byteOf s.la 0) s
  if e0.ok = false then (e0.state.markTof.attnOff, .peerTimeout)
  else
    let s1 := (wholeMonPhase 1 .write (byteOf s.la 1) e0.state).state
    let s2 := (wholeMonPhase 2 .write (byteOf s.la 2) s1).state
    let s3 := (wholeMonPhase 3 .write (byteOf s.la 3) s2).state
    let s4 := (wholeMonPhase 4 .write s.ll s3).state
    let r := wholeResponse s4.dirSense
    (r.1.dirDrive.attnOff, r.2)

theorem wholeResponsePayload_q (is : List (Fin 8)) (s : State) :
    (wholeResponsePayload is s).q = s.q := by
  induction is generalizing s with
  | nil => rfl
  | cons i rest ih =>
    rw [wholeResponsePayload_cons]
    dsimp only
    split
    · rw [ih, State.storePayload_q, wholeMonPhase_q]
    · rw [State.markTof_q, State.storePayload_q, wholeMonPhase_q]

theorem wholeResponse_q (s : State) : (wholeResponse s).1.q = s.q := by
  cases hok : (wholeMonPhase 5 .read 0 s).ok with
  | false => simp [wholeResponse_timeout hok, wholeMonPhase_q]
  | true =>
    obtain ⟨n, hv⟩ := wholeMonPhase_captures 5 0 s hok
    by_cases hlong : 8 < n.toNat
    · simp [wholeResponse_tooLong hok hv hlong, wholeMonPhase_q]
    · simp [wholeResponse_fits hok hv (Nat.not_lt.mp hlong), wholeResponsePayload_q, wholeMonPhase_q]

theorem wholeMonitorBody_q (s : State) : (wholeMonitorBody s).1.q = s.q := by
  unfold wholeMonitorBody
  dsimp only
  split <;> simp [wholeResponse_q, wholeMonPhase_q]

/-- The pseudocode's overwrite asks for the attempt's own `q`, the machine's for the register `Q`, which a
transaction leaves alone. -/
theorem overwrite_eq_overwriteMessage {r : State × ErrCode} {quiet : Bool} (hq : r.1.q = quiet) :
    (if r.1.tof = true ∧ quiet = false then (r.1.suppressMessage, r.2) else r) =
      (r.1.overwriteMessage, r.2) := by
  subst hq
  unfold State.overwriteMessage
  cases r.1.tof with
  | false => simp
  | true => cases r.1.q <;> simp

theorem wholeMonitorTxn_eq_body (quiet : Bool) (s : State) :
    wholeMonitorTxn quiet s =
      ((wholeMonitorBody (s.monitorBegun quiet)).1.overwriteMessage,
        (wholeMonitorBody (s.monitorBegun quiet)).2) := by
  have hq : (wholeMonitorBody (s.monitorBegun quiet)).1.q = quiet := by
    rw [wholeMonitorBody_q, State.monitorBegun, State.attnOn_q]
  rw [← overwrite_eq_overwriteMessage hq]
  rfl

/-- A Monitor transaction of the machine, whatever the peer's draws are, is the pseudocode's: aborted after
address phase 0, or its request and its response, at most 14 phases. What follows it is its command's. -/
theorem reachedIn_monitorBody (s : State) (c : MonCmd) :
    ReachedIn 14 (s.startPhase (.monitor c (.addr 0)))
      ((wholeMonitorBody s).1.endMonitor c (wholeMonitorBody s).2) := by
  unfold wholeMonitorBody
  dsimp only
  split
  case isTrue hok => exact (reachedIn_monitorAbort rfl hok).mono (by decide)
  case isFalse hok =>
    have hseen := Bool.eq_true_of_not_eq_false hok
    dsimp only
    rw [← State.monitorEpilogue]
    refine (reachedIn_monitorAddr (k := 0) (ph := .addr 1) rfl rfl (fun _ => hseen) fun _ => rfl).trans <|
      (reachedIn_monitorAddr (k := 1) (ph := .addr 2) rfl ?_ (by simp) fun _ => rfl).trans <|
      (reachedIn_monitorAddr (k := 2) (ph := .addr 3) rfl ?_ (by simp) fun _ => rfl).trans <|
      (reachedIn_monitorAddr (k := 3) (ph := .rql) rfl ?_ (by simp) fun _ => rfl).trans <|
      (reachedIn_requestLength ?_).trans <| reachedIn_response _ c
    · simp [wholeMonPhase_la]
    · simp [wholeMonPhase_la]
    · simp [wholeMonPhase_la]
    · simp [wholeMonPhase_ll]

/-! ### The commands without a retry (41_transactions.md R157, R158) -/

theorem finishMonitor_seq (r : State × ErrCode) : (finishMonitor r).seq = .idle := by
  unfold finishMonitor
  split <;> rfl

theorem State.endMonitor_eq_finishMonitor {c : MonCmd} (s : State) (cause : ErrCode)
    (hretries : c.retries = false) :
    s.endMonitor c cause = finishMonitor (s.overwriteMessage, cause) := by
  simp [State.endMonitor, finishMonitor, hretries]

theorem runsTo_monitorTxn {i : Instr} {s t : State} {c : MonCmd} {quiet : Bool}
    (hexec : exec i s = .next (t.startMonitor c quiet)) (hretries : c.retries = false) :
    RunsTo i s (14 * s.ceil.toNat) (finishMonitor (wholeMonitorTxn quiet t)) := by
  have hbody := reachedIn_monitorBody (t.monitorBegun quiet) c
  rw [State.endMonitor_eq_finishMonitor _ _ hretries, ← wholeMonitorTxn_eq_body] at hbody
  exact runsTo_of_reachedIn hexec (by simp [State.startMonitor]) hbody (finishMonitor_seq _)

/-- Settles O34: the accept starts the one Monitor transaction, non-quiet or quiet, and as neither command
retries, its end is the command's. -/
theorem monitorRunsItsPseudocode : Obligations.MonitorRunsItsPseudocode := by
  unfold Obligations.MonitorRunsItsPseudocode
  refine ⟨⟨rfl, rfl⟩, fun s hidle =>
    ⟨⟨rejectedUnlessReady_of_idle rfl hidle, rejectedUnlessReady_of_idle rfl hidle⟩,
      fun ⟨_, hlines, hlen⟩ => ?runs⟩⟩
  have hcheck := State.txnCheck_none.mpr ⟨hlines, hlen⟩
  have hmon : exec .mon s = .next ((s.accepted .mon).latch.startMonitor .mon false) := by
    rw [exec_mon, hcheck, State.accept_runs _ _ _ hidle]
  have hmonQ : exec .monQ s = .next ((s.accepted .monQ).latch.startMonitor .monQ true) := by
    rw [exec_monQ, hcheck, State.accept_runs _ _ _ hidle]
  exact ⟨runsTo_monitorTxn hmon rfl, runsTo_monitorTxn hmonQ rfl⟩

end Sys2Proof.Machine

/-! RetryMonitor and the choice of FWD, and MON_RETRY and FWD, for every behaviour of the peer
(42_dispatch.md R180, R182): the quiet attempt and, where it fails, the one non-quiet attempt. -/

namespace Sys2Proof.Machine

/-! ### The attempts of RetryMonitor (42_dispatch.md R180) -/

section

variable {c : MonCmd}

/-- A non-quiet transaction is its command's last one, whatever the command. -/
theorem State.endMonitor_nonQuiet {s : State} (cause : ErrCode) (hq : s.q = false) :
    s.endMonitor c cause = finishMonitor (s.overwriteMessage, cause) := by
  have hkept : s.overwriteMessage.q = false := by
    unfold State.overwriteMessage
    split <;> exact hq
  simp [State.endMonitor, finishMonitor, hkept]

/-- The command goes on after a quiet attempt by its `TOF`: it has succeeded, or begins the non-quiet
attempt. -/
def afterQuietAttempt (c : MonCmd) (s : State) : State :=
  if s.tof = false then s.finish true .none else s.startMonitor c false

theorem State.endMonitor_quiet {s : State} (cause : ErrCode) (hretries : c.retries = true)
    (hq : s.q = true) : s.endMonitor c cause = afterQuietAttempt c s.overwriteMessage := by
  have hkept : s.overwriteMessage = s := by simp [State.overwriteMessage, hq]
  simp [State.endMonitor, afterQuietAttempt, hkept, hretries, hq]

theorem reachedIn_quietAttempt (s : State) (hretries : c.retries = true) :
    ReachedIn 14 (s.startMonitor c true) (afterQuietAttempt c (wholeMonitorTxn true s).1) := by
  have hbody := reachedIn_monitorBody (s.monitorBegun true) c
  rw [State.endMonitor_quiet _ hretries (wholeMonitorBody_q _)] at hbody
  rw [wholeMonitorTxn_eq_body]
  exact hbody

theorem reachedIn_nonQuietAttempt (s : State) (c : MonCmd) :
    ReachedIn 14 (s.startMonitor c false) (finishMonitor (wholeMonitorTxn false s)) := by
  have hbody := reachedIn_monitorBody (s.monitorBegun false) c
  rw [State.endMonitor_nonQuiet _ (wholeMonitorBody_q _), ← wholeMonitorTxn_eq_body] at hbody
  exact hbody

theorem wholeRetryMonitor_seq (s : State) : (wholeRetryMonitor s).seq = .idle := by
  unfold wholeRetryMonitor
  dsimp only
  split
  · rfl
  · exact finishMonitor_seq _

/-- `RetryMonitor` on the machine, whatever the peer's draws are, is the pseudocode's: the quiet attempt
alone, or both attempts, the second from the state that the first one leaves. -/
theorem reachedIn_retryMonitor (s : State) (hretries : c.retries = true) :
    ReachedIn 28 (s.startMonitor c true) (wholeRetryMonitor s) := by
  have hfirst := reachedIn_quietAttempt s hretries
  unfold wholeRetryMonitor
  unfold afterQuietAttempt at hfirst
  dsimp only
  split
  case isTrue hok =>
    rw [if_pos hok] at hfirst
    exact hfirst.mono (by decide)
  case isFalse hfailed =>
    rw [if_neg hfailed] at hfirst
    exact hfirst.trans (reachedIn_nonQuietAttempt _ c)

/-! ### The commands (42_dispatch.md R180, R182) -/

theorem runsTo_retryMonitor {i : Instr} {s t : State} (hexec : exec i s = .next (t.startMonitor c true))
    (hretries : c.retries = true) : RunsTo i s (28 * s.ceil.toNat) (wholeRetryMonitor t) :=
  runsTo_of_reachedIn hexec (by simp [State.startMonitor]) (reachedIn_retryMonitor t hretries)
    (wholeRetryMonitor_seq t)

end

theorem wholeFwd_monitor {s : State} (h : s.msgDir = .monitor) :
    wholeFwd s = wholeRetryMonitor s.latch := by
  rw [wholeFwd, h]

theorem wholeFwd_control {s : State} (h : s.msgDir = .control) :
    wholeFwd s = wholeControlTxn s.latch := by
  rw [wholeFwd, h]

/-- FWD, by either entry, runs the transaction that `MSG_DIR` chooses (R182); a Control transaction takes
less than half of the bound. -/
theorem runsTo_fwd {s : State} (e : FwdEntry) (hready : TransactionReady s) :
    RunsTo (.fwd e) s (28 * s.ceil.toNat) (wholeFwd (s.accepted (.fwd e))) := by
  cases hdir : (s.accepted (.fwd e)).msgDir with
  | monitor =>
    obtain ⟨hidle, hlines, hlen⟩ := hready
    have hexec : exec (.fwd e) s =
        .next ((s.accepted (.fwd e)).latch.startMonitor (.fwd e) true) := by
      rw [exec_fwd_monitor e s hdir, State.txnCheck_none.mpr ⟨hlines, hlen⟩,
        State.accept_runs _ _ _ hidle]
    rw [wholeFwd_monitor hdir]
    exact runsTo_retryMonitor hexec rfl
  | control =>
    obtain ⟨c, hexec⟩ := exec_runsControl (i := .fwd e) hready (by simpa [runsControl] using hdir)
    have htxn := (reachedIn_controlTxn (s.accepted (.fwd e)).latch c).mono (show 13 ≤ 28 by decide)
    rw [wholeFwd_control hdir]
    exact runsTo_of_reachedIn hexec (by simp [State.startControl]) htxn (wholeControlTxn_seq _)

/-- Settles O35: the accept of MON_RETRY starts RetryMonitor, and that of FWD the transaction that
`MSG_DIR` chooses. -/
theorem retryAndForwardRunTheirPseudocode : Obligations.RetryAndForwardRunTheirPseudocode := by
  unfold Obligations.RetryAndForwardRunTheirPseudocode
  refine ⟨⟨rfl, rfl, rfl⟩, fun s hidle =>
    ⟨⟨rejectedUnlessReady_of_idle rfl hidle, fun _ => rejectedUnlessReady_of_idle rfl hidle⟩,
      fun hready => ⟨?monRetry, fun e => runsTo_fwd e hready⟩⟩⟩
  obtain ⟨-, hlines, hlen⟩ := hready
  have hexec :
      exec .monRetry s = .next ((s.accepted .monRetry).latch.startMonitor .monRetry true) := by
    rw [exec_monRetry, State.txnCheck_none.mpr ⟨hlines, hlen⟩, State.accept_runs _ _ _ hidle]
  exact runsTo_retryMonitor hexec rfl

end Sys2Proof.Machine

/-! The diagnostics recorder DIAG_RD (43_diagnostics.md R200 to R204): the state that one reply leaves, and
what of it a second reply in a row repeats. -/

namespace Sys2Proof.Machine

/-! ### The reply of a selector (R200 to R203) -/

theorem diagCheck_legal {sel : BitVec 3} (h : sel.toNat ≤ 4) : diagCheck sel = none :=
  if_neg (Nat.not_lt.mpr h)

/-- The end of DIAG_RD: a reply in the message registers, and success (R200, R204). -/
def State.diagDone (s : State) (sel : BitVec 3) (buf : Vector Byte 8) (len : Byte) : State :=
  { s with
    cmd := encode (.diagRd sel), msgBuf := buf, msgLen := len, status := statusSuccess
    attempts := 0, seq := .idle }

/-- The message buffer of a snapshot, given the live STROBE sample (R203). -/
def State.snapshotBuf (s : State) (strobe : Bool) : Vector Byte 8 :=
  #v[(s.snapshotBytes strobe).1, (s.snapshotBytes strobe).2, 0, 0, 0, 0, 0, 0]

theorem exec_diagRd_timer {s : State} {sel : BitVec 3} (hidle : s.status.busy = false)
    (hlegal : sel.toNat ≤ 4) (htimer : sel ≠ 4) :
    exec (.diagRd sel) s = .next (s.diagDone sel (diagBytes (s.diagValues sel)) 8) := by
  rw [exec_diagRd, diagCheck_legal hlegal, State.accept_runs _ _ _ hidle, if_neg htimer]
  rfl

theorem State.strobeTaken_accepted (s : State) (i : Instr) :
    (s.accepted i).strobeTaken = s.strobeTaken.accepted i := by
  unfold State.strobeTaken
  rw [State.accepted_strobes]
  split <;> rfl

theorem exec_diagRd_snapshot {s : State} (hidle : s.status.busy = false) :
    exec (.diagRd 4) s = .next (s.strobeTaken.diagDone 4 (s.snapshotBuf s.strobe) 2) := by
  rw [exec_diagRd, diagCheck_legal (by decide), State.accept_runs _ _ _ hidle, if_pos rfl,
    State.snapshotReply, State.strobeTaken_accepted]
  rfl

/-- Settles O21: the four selectors name the values of the timer reply. -/
theorem diagTimerReplies : Obligations.DiagTimerReplies := by
  unfold Obligations.DiagTimerReplies
  intro s hidle
  exact ⟨exec_diagRd_timer hidle (by decide) (by decide),
    exec_diagRd_timer hidle (by decide) (by decide),
    exec_diagRd_timer hidle (by decide) (by decide),
    exec_diagRd_timer hidle (by decide) (by decide)⟩

/-! ### A second run in a row (R204) -/

/-- A timer reply repeated is the whole state repeated: no reply changes a timer or `CEIL`. -/
theorem exec_diagRd_timer_again {s : State} {sel : BitVec 3} {buf : Vector Byte 8} {len : Byte}
    (hlegal : sel.toNat ≤ 4) (htimer : sel ≠ 4) :
    exec (.diagRd sel) (s.diagDone sel buf len) =
      .next (s.diagDone sel (diagBytes (s.diagValues sel)) 8) :=
  exec_diagRd_timer rfl hlegal htimer

/-- The snapshot after a snapshot shows the same lines and the same link; its STROBE is a new sample. -/
theorem State.snapshotBuf_diagDone_strobeTaken (s : State) (sel : BitVec 3) (buf : Vector Byte 8)
    (len : Byte) (strobe : Bool) :
    (s.strobeTaken.diagDone sel buf len).snapshotBuf strobe = s.snapshotBuf strobe := by
  obtain ⟨l, n, htaken⟩ := s.strobeTaken_shape
  rw [htaken]
  rfl

/-- `0xFB` clears the live STROBE, bit 2 of `LINES` (10_state.md R34). -/
theorem State.linesByte_clearStrobe (s : State) (strobe : Bool) :
    s.linesByte strobe &&& 0xFB#8 = s.linesByte false := by
  unfold State.linesByte
  generalize s.ack = ack, s.dir.bit = dir, s.attn = attn
  revert ack strobe dir attn
  decide

theorem State.snapshotBytes_default {s : State} (h : s.build.snapshot = .linesLink) (strobe : Bool) :
    s.snapshotBytes strobe = (s.linesByte strobe, s.linkByte) := by
  rw [State.snapshotBytes, h]

/-- Two default snapshots of the same lines and link differ in the STROBE bit alone. -/
theorem State.snapshotBuf_default_eq {s : State} (h : s.build.snapshot = .linesLink) (b c : Bool) :
    (s.snapshotBuf b)[0] &&& 0xFB#8 = (s.snapshotBuf c)[0] &&& 0xFB#8 ∧
      ∀ i : Fin 8, i ≠ 0 → (s.snapshotBuf b)[i] = (s.snapshotBuf c)[i] := by
  unfold State.snapshotBuf
  rw [State.snapshotBytes_default h, State.snapshotBytes_default h]
  constructor
  · exact (s.linesByte_clearStrobe b).trans (s.linesByte_clearStrobe c).symm
  · intro i hi
    obtain ⟨j, rfl⟩ := Fin.exists_succ_eq.mpr hi
    fin_cases j <;> rfl

/-- Settles O23: a timer reply depends on registers that no reply changes; a snapshot depends on the lines,
the link, and the one sample that it uses up. -/
theorem diagIsPureObservation : Obligations.DiagIsPureObservation := by
  unfold Obligations.DiagIsPureObservation
  intro s sel hidle hlegal
  by_cases hsel : sel = 4
  case pos =>
    subst hsel
    refine ⟨_, exec_diagRd_snapshot hidle, rfl, ?frame, fun h => absurd rfl h,
      _, exec_diagRd_snapshot rfl, rfl, ?msgDir, ?msgAddr, fun h => absurd rfl h,
      fun _ hlayout => ?again⟩
    case frame =>
      obtain ⟨l, n, htaken⟩ := s.strobeTaken_shape
      rw [htaken]
      rfl
    case msgDir => exact State.strobeTaken_msgDir _
    case msgAddr => exact State.strobeTaken_msgAddr _
    case again =>
      rw [State.snapshotBuf_diagDone_strobeTaken]
      exact State.snapshotBuf_default_eq hlayout _ _
  case neg =>
    have htimer : sel.toNat ≠ 4 := fun h => hsel (BitVec.eq_of_toNat_eq h)
    exact ⟨_, exec_diagRd_timer hidle hlegal hsel, rfl, rfl, fun _ => ⟨rfl, rfl⟩,
      _, exec_diagRd_timer_again hlegal hsel, rfl, rfl, rfl, fun _ => rfl, fun h => absurd h htimer⟩

end Sys2Proof.Machine

/-! The accept of a written byte: what a refusal and a reject leave unchanged (60_exceptions.md R221, R229), and
the bits of `STATUS` (10_state.md R28). -/

namespace Sys2Proof

/-! ### The byte of a decoded command (30_encoding.md R81, R82) -/

@[simp] theorem modeOfBit_bit (m : Bool) : (modeOfBit m).bit = m := by cases m <;> rfl
@[simp] theorem dirOfBit_bit (m : Bool) : (dirOfBit m).bit = m := by cases m <;> rfl
@[simp] theorem entryOfBit_bit (m : Bool) : (entryOfBit m).bit = m := by cases m <;> rfl

section

variable {c : Byte} {i j : Instr}

theorem requireSelZero_ok (h : requireSelZero c i = .ok j) : i = j ∧ selField c = 0 := by
  unfold requireSelZero at h
  split at h
  · next hsel => exact ⟨Except.ok.inj h, hsel⟩
  · cases h

theorem requireModeZero_ok (h : requireModeZero c i = .ok j) : i = j ∧ mField c = false := by
  unfold requireModeZero at h
  split at h
  · cases h
  · next hm => exact ⟨Except.ok.inj h, Bool.eq_false_of_not_eq_true hm⟩

theorem requireBothZero_ok (h : requireBothZero c i = .ok j) :
    i = j ∧ mField c = false ∧ selField c = 0 := by
  unfold requireBothZero at h
  split at h
  · next hfields => exact ⟨Except.ok.inj h, hfields⟩
  · cases h

theorem cmd8_of_fields {op : BitVec 4} {m : Bool} {sel : BitVec 3} (hop : opField c = op)
    (hm : mField c = m) (hsel : selField c = sel) : cmd8 op m sel = c := by
  rw [← hop, ← hm, ← hsel, cmd8_fields]

/-- The decoder drops no bit of a byte that it accepts. -/
theorem encode_of_decode (h : decode c = .ok i) : encode i = c := by
  unfold decode at h
  split at h
  case h_1 hop | h_2 hop | h_3 hop | h_8 hop =>
    obtain ⟨rfl, hsel⟩ := requireSelZero_ok h
    exact cmd8_of_fields hop (by simp) hsel
  case h_4 hop | h_5 hop | h_6 hop | h_7 hop =>
    obtain ⟨rfl, hm, hsel⟩ := requireBothZero_ok h
    exact cmd8_of_fields hop hm hsel
  case h_9 hop =>
    obtain ⟨rfl, hm⟩ := requireModeZero_ok h
    exact cmd8_of_fields hop hm rfl
  case h_10 => cases h

end

end Sys2Proof

namespace Sys2Proof.Machine

/-! ### A busy block (20_memory.md R64, 60_exceptions.md R229) -/

section

variable {s : State}

theorem exec_busy (i : Instr) (hbusy : s.status.busy = true) : exec i s = .next s.refuseAccess := by
  obtain ⟨check, rule, haccept⟩ := exec_is_accept i s
  rw [haccept, State.accept_busy _ _ _ _ hbusy]

theorem State.acceptIllegal_busy (c : Byte) (e : EncodingError) (hbusy : s.status.busy = true) :
    s.acceptIllegal c e = s.refuseAccess := if_pos hbusy

theorem State.commandWrite_busy (c : Byte) (hbusy : s.status.busy = true) :
    s.commandWrite c = .next s.refuseAccess := by
  unfold State.commandWrite
  split
  · exact exec_busy _ hbusy
  · rw [State.acceptIllegal_busy _ _ hbusy]

theorem State.clientWrite_busy (off width : Nat) (v : Byte) (hbusy : s.status.busy = true) :
    s.clientWrite off width v = .next s.refuseAccess := by
  unfold State.clientWrite
  split
  · rfl
  · split
    · exact State.commandWrite_busy v hbusy
    · rfl

end

/-- Settles O10: every branch of a client write to a busy block is the refusal. -/
theorem busyWritesAreRefused : Obligations.BusyWritesAreRefused := by
  unfold Obligations.BusyWritesAreRefused
  intro s off width v rest hbusy hagenda
  rw [step_agenda_cons hagenda]
  exact State.clientWrite_busy (s := s.withAgenda rest) off width v hbusy

/-! ### The bits of `STATUS` (10_state.md R28, 60_exceptions.md R223) -/

/-- `STATUS` as its code followed by its flags, one bit at a time. -/
theorem Status.byte_eq_concat (st : Status) :
    st.byte = ((((st.ecode.code.concat false).concat st.timeout).concat st.ok).concat st.done).concat
      st.busy := rfl

theorem Status.byte_flags (st : Status) :
    st.byte.getLsbD 0 = st.busy ∧ st.byte.getLsbD 1 = st.done ∧ st.byte.getLsbD 2 = st.ok ∧
      st.byte.getLsbD 3 = st.timeout ∧ st.byte.getLsbD 4 = false := by
  simp only [Status.byte_eq_concat, BitVec.getLsbD_concat]
  exact ⟨rfl, rfl, rfl, rfl, rfl⟩

theorem Status.byte_ecode (st : Status) : st.byte.extractLsb' 5 3 = st.ecode.code := by
  apply BitVec.eq_of_getLsbD_eq
  intro k hk
  have hbit : st.byte.getLsbD (k + 5) = st.ecode.code.getLsbD k := by
    simp only [Status.byte_eq_concat, BitVec.getLsbD_concat_succ]
  rw [BitVec.getLsbD_extractLsb', decide_eq_true hk, Nat.add_comm, hbit, Bool.true_and]

theorem Status.rejected_byte (code : ErrCode) :
    (Status.rejected code).byte = 0x02#8 ||| (code.code.setWidth 8 <<< 5) := by
  cases code <;> rfl

/-! ### The accept checks name an error (30_encoding.md R84) -/

theorem State.xferCheck_ne_none_code (s : State) (m : Mode) : s.xferCheck m ≠ some .none := by
  by_cases hdir : s.dir = modeDir m
  · simp [State.xferCheck_none.mpr hdir]
  · simp [State.xferCheck_wrong hdir]

theorem State.txnCheck_ne_none_code (s : State) : s.txnCheck ≠ some .none := by
  unfold State.txnCheck
  split
  · simp
  · split <;> simp

theorem diagCheck_ne_none_code (sel : BitVec 3) : diagCheck sel ≠ some .none := by
  unfold diagCheck
  split <;> simp

/-! ### The ends of an accept in an idle block (30_encoding.md R84, 60_exceptions.md R221) -/

/-- `t` is `s` after the reject of the byte `c`, with an error's code (R221). -/
def RejectedWith (s : State) (c : Byte) (t : State) : Prop :=
  ∃ code, code ≠ .none ∧ t = (s.takeCommand c).reject code

/-- The command goes on, or it has ended with success. -/
def RunsOrSucceeds (t : State) : Prop := t.status.busy = true ∨ t.status.ok = true

section

variable {s t : State} {i : Instr}

/-- An accept that does not reject does what the command's rule does. -/
theorem State.accept_rejects_or_runs {check : Option ErrCode} {rule : State → State}
    (h : s.accept i check rule = .next t) (hidle : s.status.busy = false)
    (hcheck : check ≠ some .none) (hrule : RunsOrSucceeds (rule (s.accepted i))) :
    RejectedWith s (encode i) t ∨ RunsOrSucceeds t := by
  obtain ⟨hbusy, -⟩ | ⟨-, code, rfl, rfl⟩ | ⟨-, -, rfl⟩ := State.accept_cases h
  · rw [hidle] at hbusy
    cases hbusy
  · exact .inl ⟨code, fun hcode => hcheck (congrArg some hcode), rfl⟩
  · exact .inr hrule

theorem exec_rejects_or_runs (h : exec i s = .next t) (hidle : s.status.busy = false) :
    RejectedWith s (encode i) t ∨ RunsOrSucceeds t := by
  cases i with
  | xfer m =>
    rw [exec_xfer] at h
    exact State.accept_rejects_or_runs h hidle (s.xferCheck_ne_none_code m) (.inl rfl)
  | setdir d =>
    rw [exec_setdir] at h
    exact State.accept_rejects_or_runs h hidle nofun (.inr (by cases d <;> rfl))
  | setattn level =>
    rw [exec_setattn] at h
    exact State.accept_rejects_or_runs h hidle nofun (.inr (by cases level <;> rfl))
  | ctrl | mon | monQ | monRetry =>
    simp only [exec_ctrl, exec_mon, exec_monQ, exec_monRetry] at h
    exact State.accept_rejects_or_runs h hidle s.txnCheck_ne_none_code (.inl rfl)
  | fwd e =>
    cases hdir : s.msgDir with
    | monitor =>
      rw [exec_fwd_monitor e s hdir] at h
      exact State.accept_rejects_or_runs h hidle s.txnCheck_ne_none_code (.inl rfl)
    | control =>
      rw [exec_fwd_control e s hdir] at h
      exact State.accept_rejects_or_runs h hidle s.txnCheck_ne_none_code (.inl rfl)
  | diagRd sel =>
    rw [exec_diagRd] at h
    exact State.accept_rejects_or_runs h hidle (diagCheck_ne_none_code sel)
      (.inr (by split <;> rfl))

theorem encodingCode_ne_none (e : EncodingError) : encodingCode e ≠ .none := by
  cases e <;> simp [encodingCode]

theorem State.commandWrite_rejects_or_runs {c : Byte} (h : s.commandWrite c = .next t)
    (hidle : s.status.busy = false) : RejectedWith s c t ∨ RunsOrSucceeds t := by
  obtain ⟨i, hdecode, hexec⟩ | ⟨e, -, rfl⟩ := State.commandWrite_cases h
  · rw [← encode_of_decode hdecode]
    exact exec_rejects_or_runs hexec hidle
  · exact .inl ⟨encodingCode e, encodingCode_ne_none e, State.acceptIllegal_idle e hidle⟩

end

/-- Settles O28: the bits of `STATUS` are those of its byte; and a `CMD` write that leaves the block neither
busy nor successful can only have been a reject. -/
theorem rejectsArePrecise : Obligations.RejectsArePrecise := by
  unfold Obligations.RejectsArePrecise
  refine ⟨fun st => ?bits, fun s t c rest hidle hagenda hstep hended hfailed => ?reject⟩
  case bits =>
    obtain ⟨hbusy, hdone, hok, htimeout, hreserved⟩ := st.byte_flags
    refine ⟨hbusy, hdone, hok, htimeout, hreserved, ?_⟩
    rw [st.byte_ecode]
    cases st.ecode <;> rfl
  case reject =>
    rw [step_writes_command hagenda] at hstep
    obtain ⟨code, hcode, rfl⟩ | hbusy | hok := State.commandWrite_rejects_or_runs hstep hidle
    · exact ⟨rfl, rfl, rfl, Status.rejected_byte code, hcode⟩
    · rw [hended] at hbusy
      cases hbusy
    · rw [hfailed] at hok
      cases hok

end Sys2Proof.Machine

/-! The reset event, at any step boundary and also inside a command (70_reset_and_hazards.md R250 to R252). -/

namespace Sys2Proof.Machine

/-! ### What the reset event keeps, and the status it writes (70_reset_and_hazards.md R250, R251) -/

@[simp] theorem State.resetEvent_trace (s : State) :
    s.resetEvent.trace = s.trace ++ [.reset] := rfl

@[simp] theorem State.resetEvent_refused (s : State) : s.resetEvent.refused = s.refused := rfl

@[simp] theorem State.resetEvent_status (s : State) :
    s.resetEvent.status = State.reset.status := rfl

theorem State.reset_status_byte : State.reset.status.byte = 0 := by decide

/-- No running command delays the reset: it is taken as the next step, whatever the phase (R252). -/
theorem step_reset {s : State} {rest : List Move} (h : s.agenda = .reset :: rest) :
    step s = .next (s.withAgenda rest).resetEvent := step_agenda_cons h

/-- Settles O57: the next step is the reset event, which extends the trace, keeps `REFUSED` and takes the
registers with a reset value from the power-on state, whatever they held. -/
theorem resetEventResetsEveryRegister : Obligations.ResetEventResetsEveryRegister := by
  unfold Obligations.ResetEventResetsEveryRegister
  intro s rest hagenda
  have htrace : (s.withAgenda rest).resetEvent.trace = s.trace ++ [.reset] := by simp
  have hrefused : (s.withAgenda rest).resetEvent.refused = s.refused := by simp
  have hstatus : (s.withAgenda rest).resetEvent.status.byte = 0 := by
    rw [State.resetEvent_status, State.reset_status_byte]
  exact ⟨_, step_reset hagenda, htrace, hrefused, rfl, rfl, rfl, rfl, rfl, rfl, hstatus,
    rfl, rfl, rfl, rfl, rfl, rfl, rfl, rfl, rfl, rfl, rfl, rfl⟩

end Sys2Proof.Machine

/-! The command byte made of its three fields, and read back from it (30_encoding.md R81, R82, R86). -/

namespace Sys2Proof

section

variable (op : BitVec 4) (m : Bool) (sel : BitVec 3)

@[simp] theorem opField_cmd8 : opField (cmd8 op m sel) = op :=
  BitVec.extractLsb'_append_eq_right

@[simp] theorem mField_cmd8 : mField (cmd8 op m sel) = m := by
  rw [mField, cmd8, BitVec.getLsbD_append, BitVec.getLsbD_append]
  simp

@[simp] theorem selField_cmd8 : selField (cmd8 op m sel) = sel := by
  apply BitVec.eq_of_getLsbD_eq
  intro k hk
  rw [selField, cmd8, BitVec.getLsbD_extractLsb', BitVec.getLsbD_append, BitVec.getLsbD_append]
  simp [hk, show ¬ 5 + k < 4 by omega, show ¬ 5 + k - 4 < 1 by omega, show 5 + k - 4 - 1 = k by omega]

end

@[simp] theorem modeOfBit_of_mode (m : Mode) : modeOfBit m.bit = m := by cases m <;> rfl
@[simp] theorem dirOfBit_of_dir (d : Dir) : dirOfBit d.bit = d := by cases d <;> rfl
@[simp] theorem entryOfBit_of_entry (e : FwdEntry) : entryOfBit e.bit = e := by cases e <;> rfl

/-- Settles O1: the decoder finds the three fields that the encoder put together, and the fields that R83
requires to be 0 are 0. -/
theorem decodeOfEncode : Obligations.DecodeOfEncode := by
  unfold Obligations.DecodeOfEncode
  intro i
  cases i with
  | xfer _ | setdir _ | setattn _ | fwd _ => simp [encode, decode, requireSelZero]
  | ctrl | mon | monQ | monRetry => simp [encode, decode, requireBothZero]
  | diagRd _ => simp [encode, decode, requireModeZero]

/-- Settles O2: the three fields of a byte make it up again. -/
theorem encodeOfDecode : Obligations.EncodeOfDecode := fun _ _ h => encode_of_decode h

/-- Settles O3: each of the bytes is the encoding of its command. -/
theorem opcodeMapBytesDecode : Obligations.OpcodeMapBytesDecode :=
  ⟨decodeOfEncode (.xfer .write), decodeOfEncode (.xfer .read), decodeOfEncode (.setdir .drive),
    decodeOfEncode (.setdir .sense), decodeOfEncode (.setattn false), decodeOfEncode (.setattn true),
    decodeOfEncode .ctrl, decodeOfEncode .mon, decodeOfEncode .monQ, decodeOfEncode .monRetry,
    decodeOfEncode (.fwd .monitorForward), decodeOfEncode (.fwd .controlForward),
    decodeOfEncode (.diagRd 0), decodeOfEncode (.diagRd 1), decodeOfEncode (.diagRd 2),
    decodeOfEncode (.diagRd 3), decodeOfEncode (.diagRd 4)⟩

theorem wf_iff_legalByte (i : Instr) : Laws.LegalByte.Statement i := by
  cases i with
  | xfer m => exact Laws.LegalByte.xfer m
  | setdir d => exact Laws.LegalByte.setdir d
  | setattn level => exact Laws.LegalByte.setattn level
  | ctrl => exact Laws.LegalByte.ctrl
  | mon => exact Laws.LegalByte.mon
  | monQ => exact Laws.LegalByte.monQ
  | monRetry => exact Laws.LegalByte.monRetry
  | fwd e => exact Laws.LegalByte.fwd e
  | diagRd sel => exact Laws.LegalByte.diagRd sel

/-- Settles O4: a byte that decodes is its command's own byte, so the commands' legal bytes are all there
are; and each of the 17 bytes decodes to a well-formed command. -/
theorem legalCommandBytes : Obligations.LegalCommandBytes := by
  unfold Obligations.LegalCommandBytes
  intro c
  constructor
  · rintro ⟨i, hdecode, hwf⟩
    rw [← encode_of_decode hdecode]
    exact (wf_iff_legalByte i).mp hwf
  · intro hmem
    obtain ⟨i, hdecode⟩ : ∃ i, decode c = .ok i := by
      revert hmem c
      simp only [List.forall_mem_cons]
      exact ⟨⟨_, rfl⟩, ⟨_, rfl⟩, ⟨_, rfl⟩, ⟨_, rfl⟩, ⟨_, rfl⟩, ⟨_, rfl⟩, ⟨_, rfl⟩, ⟨_, rfl⟩, ⟨_, rfl⟩,
        ⟨_, rfl⟩, ⟨_, rfl⟩, ⟨_, rfl⟩, ⟨_, rfl⟩, ⟨_, rfl⟩, ⟨_, rfl⟩, ⟨_, rfl⟩, ⟨_, rfl⟩, nofun⟩
    refine ⟨i, hdecode, (wf_iff_legalByte i).mpr ?_⟩
    rwa [encode_of_decode hdecode]

end Sys2Proof

/-! One step as one move: the block's, a command's, and an access of the window (00_scope.md R10, 20_memory.md
R60 to R64, 60_exceptions.md R220, R229, R236). -/

namespace Sys2Proof.Machine

/-! ### The moves of the block and of a command (00_scope.md R10, 30_encoding.md R84) -/

section

variable {s : State} {rest : List Move}

theorem step_agenda_nil (h : s.agenda = []) : step s = .next s.blockMove := by
  simp only [step, State.nextMove, h]

theorem State.commandWrite_decoded (s : State) {c : Byte} {i : Instr} (h : decode c = .ok i) :
    s.commandWrite c = exec i s := by
  rw [State.commandWrite, h]

end

/-- Settles O6: the write of a byte to `CMD` is a command write, which runs the decoded command. -/
theorem stepRunsTheWrittenCommand : Obligations.StepRunsTheWrittenCommand := by
  unfold Obligations.StepRunsTheWrittenCommand
  intro s c i rest hagenda hdecode
  rw [step_writes_command hagenda]
  exact (s.withAgenda rest).commandWrite_decoded hdecode

/-- Settles O7. -/
theorem stepMovesTheBlock : Obligations.StepMovesTheBlock := by
  unfold Obligations.StepMovesTheBlock
  exact fun s => ⟨step_agenda_nil, fun rest h => step_agenda_cons h⟩

/-- Settles O8: the step is the block's move, and an idle block makes none. -/
theorem idleBlockTakesNoStep : Obligations.IdleBlockTakesNoStep := by
  unfold Obligations.IdleBlockTakesNoStep
  intro s hidle hagenda
  rw [step_agenda_nil hagenda, s.blockMove_idle hidle]

/-! ### Every move answers a next state (60_exceptions.md R220) -/

theorem exec_next (i : Instr) (s : State) : ∃ t, exec i s = .next t := by
  obtain ⟨check, rule, h⟩ := exec_is_accept i s
  rw [h]
  exact s.accept_next i check rule

theorem State.commandWrite_next (s : State) (c : Byte) : ∃ t, s.commandWrite c = .next t := by
  unfold State.commandWrite
  split
  · exact exec_next _ s
  · exact ⟨_, rfl⟩

theorem State.clientWrite_next (s : State) (off width : Nat) (v : Byte) :
    ∃ t, s.clientWrite off width v = .next t := by
  unfold State.clientWrite
  split
  · exact ⟨_, rfl⟩
  · split
    · exact s.commandWrite_next v
    · split <;> exact ⟨_, rfl⟩

theorem State.move_next (s : State) (m : Move) : ∃ t, s.move m = .next t := by
  cases m with
  | write off width v => exact s.clientWrite_next off width v
  | block | read _ _ | await | reset => exact ⟨_, rfl⟩

/-- Settles O9: the one move that is more than an update of the state is a command, and its accept always
answers a next state. -/
theorem everyStepAnswersNext : Obligations.EveryStepAnswersNext := by
  unfold Obligations.EveryStepAnswersNext
  intro s
  cases hagenda : s.agenda with
  | nil => exact ⟨_, step_agenda_nil hagenda⟩
  | cons m rest =>
    rw [step_agenda_cons hagenda]
    exact (s.withAgenda rest).move_next m

/-! ### Refused accesses (20_memory.md R60, R64) -/

/-- Settles O11. -/
theorem busyBlockRefusesEveryCommand : Obligations.BusyBlockRefusesEveryCommand :=
  fun i _ hbusy => exec_busy i hbusy

theorem legalAccess_outside {off width : Nat} (h : width ≠ 1 ∨ 0x80 ≤ off) :
    legalAccess off width = false := by
  rw [Bool.eq_false_iff]
  intro hlegal
  simp only [legalAccess, Bool.and_eq_true, decide_eq_true_eq] at hlegal
  omega

/-- Settles O12: an access that is not legal is refused before the window is looked at. -/
theorem accessOutsideTheWindowIsRefused : Obligations.AccessOutsideTheWindowIsRefused := by
  unfold Obligations.AccessOutsideTheWindowIsRefused
  intro s off width v rest houtside
  have hillegal := legalAccess_outside houtside
  refine ⟨fun hwrite => ?write, fun hread => ?read⟩
  case write =>
    rw [step_agenda_cons hwrite]
    exact if_pos hillegal
  case read =>
    rw [step_agenda_cons hread]
    exact congrArg Host.Outcome.next (if_pos hillegal)

end Sys2Proof.Machine

namespace Sys2Proof

/-! ### The window map (20_memory.md R61, R67) -/

theorem WinReg.ofOffset_msgAddr {off : Nat} (h : 0x04 ≤ off ∧ off < 0x08) :
    WinReg.ofOffset off = .msgAddr ⟨off - 0x04, by omega⟩ := by
  rw [WinReg.ofOffset, if_neg (by omega), if_neg (by omega), if_neg (by omega), if_neg (by omega),
    dif_pos h]

theorem WinReg.ofOffset_msgBuf {off : Nat} (h : 0x10 ≤ off ∧ off < 0x18) :
    WinReg.ofOffset off = .msgBuf ⟨off - 0x10, by omega⟩ := by
  simp (disch := omega) only [WinReg.ofOffset, if_neg, dif_neg, dif_pos]

theorem WinReg.ofOffset_monT_high (k : Fin 14) : WinReg.ofOffset (0x20 + 2 * k.val) = .monT k true := by
  rw [WinReg.ofOffset_monT (by omega)]
  simp [show (0x20 + 2 * k.val) % 2 = 0 by omega]

theorem WinReg.ofOffset_monT_low (k : Fin 14) : WinReg.ofOffset (0x21 + 2 * k.val) = .monT k false := by
  rw [WinReg.ofOffset_monT (by omega)]
  simp [show (0x21 + 2 * k.val) % 2 = 1 by omega, show (0x21 + 2 * k.val - 0x20) / 2 = k.val by omega]

theorem WinReg.ofOffset_ctlT_high (k : Fin 13) : WinReg.ofOffset (0x40 + 2 * k.val) = .ctlT k true := by
  rw [WinReg.ofOffset_ctlT (by omega)]
  simp [show (0x40 + 2 * k.val) % 2 = 0 by omega]

theorem WinReg.ofOffset_ctlT_low (k : Fin 13) : WinReg.ofOffset (0x41 + 2 * k.val) = .ctlT k false := by
  rw [WinReg.ofOffset_ctlT (by omega)]
  simp [show (0x41 + 2 * k.val) % 2 = 1 by omega, show (0x41 + 2 * k.val - 0x40) / 2 = k.val by omega]

theorem halfOffset_le (high : Bool) : halfOffset high ≤ 1 := by cases high <;> decide

theorem WinReg.offset_lt (r : WinReg) : r.offset < 0x80 := by
  cases r with
  | xferT high | ceil high | monT _ high | ctlT _ high =>
    have hhalf := halfOffset_le high
    simp only [WinReg.offset]
    omega
  | _ =>
    simp only [WinReg.offset]
    omega

/-- The runs of registers lie apart, so a register's offset names it alone. -/
theorem WinReg.ofOffset_offset (r : WinReg) : WinReg.ofOffset r.offset = r := by
  cases r with
  | cmd | cmdArg | status | attempts | msgDir | msgLen | xferData | rlen | link | lines => rfl
  | xferT high | ceil high => cases high <;> rfl
  | msgAddr k => simp [WinReg.offset, WinReg.ofOffset_msgAddr (off := 0x04 + k.val) (by omega)]
  | msgBuf i => simp [WinReg.offset, WinReg.ofOffset_msgBuf (off := 0x10 + i.val) (by omega)]
  | monT k high =>
    cases high with
    | true => exact WinReg.ofOffset_monT_high k
    | false =>
      have hoff : 0x20 + 2 * k.val + 1 = 0x21 + 2 * k.val := by omega
      exact (congrArg WinReg.ofOffset hoff).trans (WinReg.ofOffset_monT_low k)
  | ctlT k high =>
    cases high with
    | true => exact WinReg.ofOffset_ctlT_high k
    | false =>
      have hoff : 0x40 + 2 * k.val + 1 = 0x41 + 2 * k.val := by omega
      exact (congrArg WinReg.ofOffset hoff).trans (WinReg.ofOffset_ctlT_low k)
  | reservedLow j =>
    simp [WinReg.offset, WinReg.ofOffset_reservedLow (off := 0x1A + j.val) (by omega)]
  | reservedMid j =>
    simp [WinReg.offset, WinReg.ofOffset_reservedMid (off := 0x3C + j.val) (by omega)]
  | reservedHigh j =>
    simp [WinReg.offset, WinReg.ofOffset_reservedHigh (off := 0x5A + j.val) (by omega)]

/-- Every offset of the window is some register's: of the single ones, or of a run. -/
theorem WinReg.exists_offset {off : Nat} (h : off < 0x80) : ∃ r : WinReg, r.offset = off := by
  have all : ∀ o < 0x80, (WinReg.ofOffset o).offset = o := by decide
  exact ⟨_, all off h⟩

theorem WinReg.offset_ofOffset {off : Nat} (h : off < 0x80) : (WinReg.ofOffset off).offset = off := by
  obtain ⟨r, rfl⟩ := WinReg.exists_offset h
  rw [WinReg.ofOffset_offset]

theorem WinReg.ofOffset_ne {off other : Nat} (h : off < 0x80) (h' : other < 0x80)
    (hne : other ≠ off) : WinReg.ofOffset other ≠ WinReg.ofOffset off := fun heq =>
  hne (by rw [← WinReg.offset_ofOffset h', heq, WinReg.offset_ofOffset h])

/-- The registers that a client can write, but for `CMD` (20_memory.md R61). -/
def WinReg.writable : WinReg → Bool
  | .cmdArg | .msgAddr _ | .msgDir | .msgLen | .msgBuf _ | .link => true
  | _ => false

theorem WinReg.ofOffset_writable {off : Nat}
    (h : off = 0x01 ∨ 0x04 ≤ off ∧ off < 0x0A ∨ off = 0x0C ∨ 0x10 ≤ off ∧ off < 0x18) :
    (WinReg.ofOffset off).writable = true := by
  have hoff : off = 0x01 ∨ off = 0x08 ∨ off = 0x09 ∨ off = 0x0C ∨ (0x04 ≤ off ∧ off < 0x08) ∨
      0x10 ≤ off ∧ off < 0x18 := by omega
  obtain rfl | rfl | rfl | rfl | haddr | hbuf := hoff
  · rfl
  · rfl
  · rfl
  · rfl
  · rw [WinReg.ofOffset_msgAddr haddr]; rfl
  · rw [WinReg.ofOffset_msgBuf hbuf]; rfl

end Sys2Proof

namespace Sys2Proof.Machine

/-! ### What an offset shows (20_memory.md R61, R62) -/

theorem State.windowByte_offset (s : State) (strobe : Bool) (r : WinReg) :
    s.windowByte strobe r.offset = s.readReg strobe r := by
  rw [State.windowByte, WinReg.ofOffset_offset]

theorem State.windowByte_reserved (s : State) (strobe : Bool) {off : Nat}
    (h : 0x1A ≤ off ∧ off < 0x20 ∨ 0x3C ≤ off ∧ off < 0x40 ∨ 0x5A ≤ off ∧ off < 0x80) :
    s.windowByte strobe off = 0 :=
  s.readReg_reserved strobe (WinReg.ofOffset_reserved h)

theorem bitByte_msgDir (d : MsgDir) :
    bitByte d.bit = match d with | .monitor => 0 | .control => 1 := by
  cases d <;> rfl

theorem State.linkByte_eq (s : State) :
    s.linkByte = match s.link with | .notReady => 0 | .ready => 1 | .initialized => 2 := by
  unfold State.linkByte
  cases s.link <;> rfl

/-- Settles O13: an offset shows what its register reads as. -/
theorem windowMapIsABijection : Obligations.WindowMapIsABijection := by
  unfold Obligations.WindowMapIsABijection
  refine ⟨fun r => ⟨r.offset_lt, r.ofOffset_offset⟩, fun off => WinReg.offset_ofOffset,
    fun s strobe => ?_⟩
  intro shows
  have shown (r : WinReg) : shows r.offset (s.readReg strobe r) := s.windowByte_offset strobe r
  have monLow (k : Fin 14) : shows (0x21 + 2 * k.val) (loByte s.monT[k]) :=
    congrArg (s.readReg strobe) (WinReg.ofOffset_monT_low k)
  have ctlLow (k : Fin 13) : shows (0x41 + 2 * k.val) (loByte s.ctlT[k]) :=
    congrArg (s.readReg strobe) (WinReg.ofOffset_ctlT_low k)
  exact ⟨shown .cmd, shown .cmdArg, shown .status, shown .attempts,
    fun k hk => shown (.msgAddr ⟨k, hk⟩), (shown .msgDir).trans (bitByte_msgDir s.msgDir),
    shown .msgLen, shown .xferData, shown .rlen, (shown .link).trans s.linkByte_eq, shown .lines,
    shown (.xferT true), shown (.xferT false), fun i => shown (.msgBuf i), shown (.ceil true),
    shown (.ceil false), fun k => ⟨shown (.monT k true), monLow k⟩,
    fun k => ⟨shown (.ctlT k true), ctlLow k⟩, fun _ => s.windowByte_reserved strobe⟩

/-! ### Reads (20_memory.md R63, R64) -/

section

variable {s : State} {off : Nat} {rest : List Move}

theorem ofOffset_ne_lines (hoff : off < 0x80) (hne : off ≠ 0x0D) :
    WinReg.ofOffset off ≠ .lines :=
  WinReg.ofOffset_ne (off := 0x0D) (by decide) hoff hne

/-- A read of `LINES` is exact in an idle and in a busy block. -/
theorem step_read_lines {b : Bool} {bs : List Bool} (h : s.agenda = .read 0x0D 1 :: rest)
    (hstrobes : s.strobes = b :: bs) :
    step s = .next { s with
      agenda := rest, strobes := bs, reads := s.reads ++ [(0x0D, s.linesByte b)] } := by
  obtain ⟨hstrobe, htaken⟩ := State.strobe_cons (s := s.withAgenda rest) hstrobes
  have hread : (s.withAgenda rest).clientRead 0x0D 1 =
      (s.withAgenda rest).strobeTaken.gotByte 0x0D
        ((s.withAgenda rest).linesByte (s.withAgenda rest).strobe) := by
    cases hbusy : s.status.busy <;>
      simp [State.clientRead, legalAccess, hbusy, WinReg.ofOffset, WinRegExactWhileBusy,
        State.windowByte, State.readReg]
  rw [step_agenda_cons h, State.move, hread, hstrobe, htaken]
  rfl

/-- Settles O16: a read returns the register that the offset names, and of these `LINES` alone draws. -/
theorem readsHaveNoSideEffect : Obligations.ReadsHaveNoSideEffect := by
  unfold Obligations.ReadsHaveNoSideEffect
  intro s off rest hidle hoff hread
  refine ⟨fun hne => step_read_idle hidle hread hoff (ofOffset_ne_lines hoff hne), ?_⟩
  rintro rfl b bs hstrobes
  exact step_read_lines hread hstrobes

/-- The offsets whose reads are exact while a command runs (20_memory.md R64). -/
theorem exact_offset {r : WinReg} (h : WinRegExactWhileBusy r = true) :
    r.offset = 0x02 ∨ r.offset = 0x0C ∨ r.offset = 0x0D ∨ r.offset = 0x18 ∨ r.offset = 0x19 := by
  cases r with
  | status | lines | link => decide
  | ceil high => cases high <;> decide
  | _ => cases h

theorem step_read_busy_exact (hread : s.agenda = .read off 1 :: rest) (hoff : off < 0x80)
    (hexact : WinRegExactWhileBusy (WinReg.ofOffset off) = true)
    (hlines : WinReg.ofOffset off ≠ .lines) :
    step s = .next { s with
      agenda := rest, reads := s.reads ++ [(off, s.windowByte false off)] } := by
  have hexact' : (s.withAgenda rest).clientRead off 1 =
      (s.withAgenda rest).gotByte off ((s.withAgenda rest).windowByte false off) := by
    simp [State.clientRead, legalAccess_byte hoff, hexact, hlines]
  rw [step_agenda_cons hread, State.move, hexact']
  rfl

theorem step_read_busy_free (hbusy : s.status.busy = true) (hread : s.agenda = .read off 1 :: rest)
    (hoff : off < 0x80) (hfree : WinRegExactWhileBusy (WinReg.ofOffset off) = false) :
    step s = .next { s with
      agenda := rest, draws := s.draws + 1
      reads := s.reads ++ [(off, Config.freeRead s.draws)] } := by
  have hfree' : (s.withAgenda rest).clientRead off 1 =
      (s.withAgenda rest).drawTaken.gotByte off (Config.freeRead s.draws) := by
    simp [State.clientRead, legalAccess_byte hoff, hbusy, hfree]
  rw [step_agenda_cons hread, State.move, hfree']
  rfl

end

/-- Settles O17: the offsets fall apart into the exact ones but `LINES`, `LINES`, and the free ones. -/
theorem readsWhileBusy : Obligations.ReadsWhileBusy := by
  unfold Obligations.ReadsWhileBusy
  intro s off rest hbusy hoff hread
  refine ⟨?exact, ?lines, fun h2 hC hD h18 h19 => ?free⟩
  case exact =>
    rintro (rfl | rfl | rfl | rfl) <;> exact step_read_busy_exact hread hoff rfl (by decide)
  case lines =>
    rintro rfl b bs hstrobes
    exact step_read_lines hread hstrobes
  case free =>
    refine ⟨_, step_read_busy_free hbusy hread hoff (Bool.eq_false_iff.mpr fun hexact => ?_)⟩
    have hoffset := exact_offset hexact
    rw [WinReg.offset_ofOffset hoff] at hoffset
    omega

/-! ### Writes (20_memory.md R61, R63, R67) -/

section

variable (v : Rca) (b : Byte)

theorem getLsbD_setByteOf (k : Fin 4) (j : Nat) (hj : j < 32) :
    (setByteOf v k b).getLsbD j =
      if 8 * k.val ≤ j ∧ j < 8 * k.val + 8 then b.getLsbD (j - 8 * k.val) else v.getLsbD j := by
  have hmask : (0xFF#32) = (BitVec.allOnes 8).setWidth 32 := by decide
  rw [setByteOf, hmask]
  simp only [BitVec.getLsbD_or, BitVec.getLsbD_and, BitVec.getLsbD_not, BitVec.getLsbD_shiftLeft,
    BitVec.getLsbD_setWidth, BitVec.getLsbD_allOnes]
  rcases Nat.lt_or_ge j (8 * k.val) with hlow | hge
  · simp [hj, hlow]
  · rcases Nat.lt_or_ge j (8 * k.val + 8) with hin | hhigh
    · simp [hj, hge, hin, show ¬ j < 8 * k.val by omega, show j - 8 * k.val < 8 by omega,
        show j - 8 * k.val < 32 by omega]
    · have hbit : b.getLsbD (j - 8 * k.val) = false := b.getLsbD_of_ge _ (by omega)
      simp [hj, hge, hbit, show ¬ j < 8 * k.val + 8 by omega, show ¬ j - 8 * k.val < 8 by omega]

theorem byteOf_setByteOf (k k' : Fin 4) :
    byteOf (setByteOf v k b) k' = if k' = k then b else byteOf v k' := by
  apply BitVec.eq_of_getLsbD_eq
  intro j hj
  rw [byteOf, BitVec.getLsbD_extractLsb', getLsbD_setByteOf v b k _ (by omega)]
  split_ifs with hin heq heq
  · simp [hj, heq]
  · omega
  · omega
  · simp [byteOf, hj]

end

/-- A word is told by its four bytes. -/
theorem eq_of_byteOf_eq {v w : Rca} (h : ∀ k, byteOf v k = byteOf w k) : v = w := by
  rw [← ofLe32_byteOf v, ← ofLe32_byteOf w, h 0, h 1, h 2, h 3]

theorem LinkState.written_code (old : LinkState) (v : Byte) :
    ((old.written v).code.setWidth 8 : Byte) =
      if v.toNat % 4 = 3 then old.code.setWidth 8 else v &&& 3 := by
  have hmask : (v &&& 3).toNat = v.toNat % 4 := Nat.and_two_pow_sub_one_eq_mod v.toNat 2
  rw [LinkState.written_eq]
  obtain h | h | h | h : v.toNat % 4 = 0 ∨ v.toNat % 4 = 1 ∨ v.toNat % 4 = 2 ∨ v.toNat % 4 = 3 := by
    omega
  all_goals
    rw [h] at hmask
    simp only [h, reduceCtorEq, if_true, if_false, Nat.reduceEqDiff]
  all_goals exact (BitVec.eq_of_toNat_eq hmask).symm

section

variable (s : State) (strobe : Bool) (v : Byte)

theorem State.readReg_writeReg_ne {r r' : WinReg} (h : r' ≠ r) :
    (s.writeReg r v).readReg strobe r' = s.readReg strobe r' := by
  cases r with
  | cmdArg =>
    cases r' with
    | cmdArg => exact absurd rfl h
    | _ => rfl
  | msgDir =>
    cases r' with
    | msgDir => exact absurd rfl h
    | _ => rfl
  | msgLen =>
    cases r' with
    | msgLen => exact absurd rfl h
    | _ => rfl
  | link =>
    cases r' with
    | link => exact absurd rfl h
    | _ => rfl
  | msgAddr k =>
    cases r' with
    | msgAddr k' =>
      have hk : k' ≠ k := fun hk => h (congrArg WinReg.msgAddr hk)
      exact (byteOf_setByteOf s.msgAddr v k k').trans (if_neg hk)
    | _ => rfl
  | msgBuf i =>
    cases r' with
    | msgBuf j =>
      have hij : i.val ≠ j.val := fun hij => h (congrArg WinReg.msgBuf (Fin.ext hij.symm))
      exact Vector.getElem_set_ne i.isLt j.isLt hij
    | _ => rfl
  | _ => rfl

/-- What a register reads as after a write: its legal bits (10_state.md R22 to R25, R27, R33). -/
theorem State.readReg_writeReg_same {r : WinReg} (h : r.writable = true) :
    (s.writeReg r v).readReg strobe r =
      if r = .msgDir then v &&& 1
      else if r = .link then if v.toNat % 4 = 3 then s.readReg strobe .link else v &&& 3
      else v := by
  cases r with
  | cmdArg | msgLen => rfl
  | msgAddr k => exact (byteOf_setByteOf s.msgAddr v k k).trans (if_pos rfl)
  | msgBuf i => exact Vector.getElem_set_self i.isLt
  | link => exact s.link.written_code v
  | msgDir =>
    have hbit : bitByte (MsgDir.ofByte v).bit = v &&& 1 := by
      revert v
      decide
    exact hbit
  | _ => cases h

end

/-- A write of a writable register moves no line, no event, no hidden register and no record of the model. -/
theorem State.writeReg_frame (s : State) (r : WinReg) (v : Byte) :
    ∃ arg addr dir len buf link, s.writeReg r v =
      { s with
        cmdArg := arg, msgAddr := addr, msgDir := dir, msgLen := len, msgBuf := buf, link := link } := by
  cases r <;> exact ⟨_, _, _, _, _, _, rfl⟩

/-- Settles O15: the step is the write of the register that the offset names, and other offsets name other
registers. -/
theorem registerWritesStayInTheirByte : Obligations.RegisterWritesStayInTheirByte := by
  unfold Obligations.RegisterWritesStayInTheirByte
  intro s off v rest hidle hwrite hoffsets
  have hoff : off < 0x80 := by omega
  have hwritable := WinReg.ofOffset_writable hoffsets
  have hcmd : WinReg.ofOffset off ≠ .cmd := fun h => by rw [h] at hwritable; cases hwritable
  refine ⟨_, step_write_idle hidle hwrite hoff hcmd, fun strobe other hother hne => ?others,
    fun strobe => ?own, ?frame⟩
  case others => exact State.readReg_writeReg_ne _ strobe v (WinReg.ofOffset_ne hoff hother hne)
  case own =>
    have named (n : Nat) (hn : n < 0x80) : WinReg.ofOffset off = WinReg.ofOffset n ↔ off = n :=
      ⟨fun h => by_contra fun hne => WinReg.ofOffset_ne hn hoff hne h, congrArg _⟩
    have hdir : WinReg.ofOffset off = .msgDir ↔ off = 0x08 := named 0x08 (by decide)
    have hlink : WinReg.ofOffset off = .link ↔ off = 0x0C := named 0x0C (by decide)
    refine (State.readReg_writeReg_same _ strobe v hwritable).trans ?_
    simp only [hdir, hlink]
    split_ifs with _ hC _
    · rfl
    · rw [hC]; rfl
    · rfl
    · rfl
  case frame =>
    obtain ⟨_, _, _, _, _, _, hframe⟩ := (s.withAgenda rest).writeReg_frame (WinReg.ofOffset off) v
    rw [hframe]
    exact ⟨rfl, rfl, rfl, rfl, rfl, rfl, rfl, rfl, rfl, rfl, rfl, rfl, rfl, rfl⟩

/-! ### Runs, and the writes of `ldmsg` (30_encoding.md R99) -/

theorem core_run_succ {M : Host.Core} {s t : M.State} (k : Nat) (hstep : M.step s = .next t) :
    M.run (k + 1) s = M.run k t := by
  rw [Host.Core.run, hstep]

theorem runs_zero (s : State) : Runs 0 s s := rfl

theorem runs_succ {s t u : State} {k : Nat} (hstep : step s = .next t) (hruns : Runs k t u) :
    Runs (k + 1) s u :=
  (core_run_succ (M := Sys2Proof.core) k hstep).trans hruns

theorem step_writeMove {s : State} {r : WinReg} {v : Byte} {rest : List Move}
    (hidle : s.status.busy = false) (hagenda : s.agenda = writeMove r v :: rest) (hcmd : r ≠ .cmd) :
    step s = .next ((s.withAgenda rest).writeReg r v) := by
  have hwrite := step_write_idle hidle hagenda r.offset_lt (by rwa [WinReg.ofOffset_offset])
  rwa [WinReg.ofOffset_offset] at hwrite

/-- The payload writes from `MSG_BUF` byte `i` on store their bytes in order. -/
theorem runs_payloadMoves {s : State} {i : Nat} {payload : List Byte}
    (hidle : s.status.busy = false) (hfits : i + payload.length ≤ 8)
    (hagenda : s.agenda = payloadMoves i payload) :
    Runs payload.length s { s with agenda := [], msgBuf := storeFrom s.msgBuf i payload } := by
  induction payload generalizing s i with
  | nil =>
    have hdone : { s with agenda := [], msgBuf := storeFrom s.msgBuf i [] } = s := by
      rw [storeFrom_nil, ← (show s.agenda = [] from hagenda)]
    rw [hdone]
    exact runs_zero s
  | cons b bs ih =>
    rw [List.length_cons] at hfits
    have hi : i < 8 := by omega
    have hwrite := step_writeMove (r := .msgBuf ⟨i, hi⟩) hidle hagenda nofun
    have hlater := ih (s := (s.withAgenda (payloadMoves (i + 1) bs)).writeReg (.msgBuf ⟨i, hi⟩) b)
      (i := i + 1) hidle (by omega) rfl
    have hstored : storeFrom (s.msgBuf.set i b) (i + 1) bs = storeFrom s.msgBuf i (b :: bs) :=
      storeFrom_set s.msgBuf i hi b bs
    rw [← hstored]
    exact runs_succ hwrite hlater

/-- The four byte writes of `MSG_ADDR` replace the whole of it. -/
theorem setByteOf_all (v rca : Rca) :
    setByteOf (setByteOf (setByteOf (setByteOf v 0 (byteOf rca 0)) 1 (byteOf rca 1)) 2
      (byteOf rca 2)) 3 (byteOf rca 3) = rca := by
  refine eq_of_byteOf_eq fun k => ?_
  simp only [byteOf_setByteOf]
  have hk : k = 0 ∨ k = 1 ∨ k = 2 ∨ k = 3 := by omega
  obtain rfl | rfl | rfl | rfl := hk <;> simp

/-- Settles O18: the six register writes load the header, and the payload writes follow. -/
theorem ldmsgLoadsTheMessage : Obligations.LdmsgLoadsTheMessage := by
  unfold Obligations.LdmsgLoadsTheMessage
  intro s control rca len payload hidle hfits _ hagenda
  have hdir : MsgDir.ofByte (bitByte control) = if control then .control else .monitor := by
    cases control <;> rfl
  have hpayload := runs_payloadMoves (i := 0) (payload := payload)
    (s := { s with
      agenda := payloadMoves 0 payload
      msgDir := MsgDir.ofByte (bitByte control)
      msgAddr := setByteOf (setByteOf (setByteOf (setByteOf s.msgAddr 0 (byteOf rca 0)) 1
        (byteOf rca 1)) 2 (byteOf rca 2)) 3 (byteOf rca 3)
      msgLen := len }) hidle (by omega) rfl
  have hheader :=
    runs_succ (step_writeMove hidle hagenda nofun) <|
      runs_succ (step_writeMove hidle rfl nofun) <| runs_succ (step_writeMove hidle rfl nofun) <|
      runs_succ (step_writeMove hidle rfl nofun) <| runs_succ (step_writeMove hidle rfl nofun) <|
      runs_succ (step_writeMove hidle rfl nofun) hpayload
  rw [Nat.add_comm]
  exact ⟨_, hheader, fun i => getElem_storeFrom s.msgBuf 0 payload i.val i.isLt,
    by simp only [hdir, setByteOf_all]⟩

end Sys2Proof.Machine

/-! The accepts of an idle block, the snapshot's bits, and the build parameters and registers at power-on
(30_encoding.md R84, 41_transactions.md R140, 43_diagnostics.md R203, 70_reset_and_hazards.md R251). -/

namespace Sys2Proof.Machine

/-! ### The checks fail (30_encoding.md R84, 60_exceptions.md R224) -/

theorem diagCheck_illegal {sel : BitVec 3} (h : 4 < sel.toNat) : diagCheck sel = some .badSelect :=
  if_pos h

theorem acceptRejects_xfer {s : State} {m : Mode} (hidle : s.status.busy = false)
    (hdir : s.dir ≠ modeDir m) : AcceptRejects (.xfer m) s .lineState := by
  refine acceptRejects_of_reject ?_
  rw [exec_xfer, State.xferCheck_wrong hdir, State.accept_rejected _ _ _ _ hidle]

theorem acceptRejects_diagRd {s : State} {sel : BitVec 3} (hidle : s.status.busy = false)
    (hsel : 4 < sel.toNat) : AcceptRejects (.diagRd sel) s .badSelect := by
  refine acceptRejects_of_reject ?_
  rw [exec_diagRd, diagCheck_illegal hsel, State.accept_rejected _ _ _ _ hidle]

/-- Settles O27: each check names its code, and a failed check is a reject. -/
theorem acceptChecksInOrder : Obligations.AcceptChecksInOrder := by
  unfold Obligations.AcceptChecksInOrder
  exact fun s hidle => ⟨fun _ => acceptRejects_diagRd hidle, fun _ => acceptRejects_xfer hidle,
    fun _ hi => rejectedUnlessReady_of_idle hi hidle⟩

/-! ### The checks pass (30_encoding.md R84) -/

theorem exec_xfer_starts {s : State} {m : Mode} (hidle : s.status.busy = false)
    (hdir : s.dir = modeDir m) :
    exec (.xfer m) s = .next ((s.accepted (.xfer m)).startPhase (.xfer m)) := by
  rw [exec_xfer, State.xferCheck_none.mpr hdir, State.accept_runs _ _ _ hidle]

/-- Settles O24. -/
theorem xferStartsItsPhase : Obligations.XferStartsItsPhase := by
  unfold Obligations.XferStartsItsPhase
  exact fun s m hidle hdir => exec_xfer_starts hidle hdir

section

variable {s : State}

theorem exec_ctrl_starts (hready : TransactionReady s) :
    exec .ctrl s = .next ((s.accepted .ctrl).latch.startControl .ctrl) := by
  obtain ⟨hidle, hlines, hlen⟩ := hready
  rw [exec_ctrl, State.txnCheck_none.mpr ⟨hlines, hlen⟩, State.accept_runs _ _ _ hidle]

theorem exec_fwd_control_starts (hready : TransactionReady s) (hdir : s.msgDir = .control)
    (e : FwdEntry) :
    exec (.fwd e) s = .next ((s.accepted (.fwd e)).latch.startControl (.fwd e)) := by
  obtain ⟨hidle, hlines, hlen⟩ := hready
  rw [exec_fwd_control e s hdir, State.txnCheck_none.mpr ⟨hlines, hlen⟩,
    State.accept_runs _ _ _ hidle]

theorem exec_mon_starts (hready : TransactionReady s) :
    exec .mon s = .next ((s.accepted .mon).latch.startMonitor .mon false) := by
  obtain ⟨hidle, hlines, hlen⟩ := hready
  rw [exec_mon, State.txnCheck_none.mpr ⟨hlines, hlen⟩, State.accept_runs _ _ _ hidle]

theorem exec_monQ_starts (hready : TransactionReady s) :
    exec .monQ s = .next ((s.accepted .monQ).latch.startMonitor .monQ true) := by
  obtain ⟨hidle, hlines, hlen⟩ := hready
  rw [exec_monQ, State.txnCheck_none.mpr ⟨hlines, hlen⟩, State.accept_runs _ _ _ hidle]

theorem exec_monRetry_starts (hready : TransactionReady s) :
    exec .monRetry s = .next ((s.accepted .monRetry).latch.startMonitor .monRetry true) := by
  obtain ⟨hidle, hlines, hlen⟩ := hready
  rw [exec_monRetry, State.txnCheck_none.mpr ⟨hlines, hlen⟩, State.accept_runs _ _ _ hidle]

theorem exec_fwd_monitor_starts (hready : TransactionReady s) (hdir : s.msgDir = .monitor)
    (e : FwdEntry) :
    exec (.fwd e) s = .next ((s.accepted (.fwd e)).latch.startMonitor (.fwd e) true) := by
  obtain ⟨hidle, hlines, hlen⟩ := hready
  rw [exec_fwd_monitor e s hdir, State.txnCheck_none.mpr ⟨hlines, hlen⟩,
    State.accept_runs _ _ _ hidle]

end

/-- Settles O25. -/
theorem controlTransactionsStart : Obligations.ControlTransactionsStart := by
  unfold Obligations.ControlTransactionsStart
  exact fun s hready => ⟨exec_ctrl_starts hready, exec_fwd_control_starts hready⟩

/-- Settles O26. -/
theorem monitorTransactionsStart : Obligations.MonitorTransactionsStart := by
  unfold Obligations.MonitorTransactionsStart
  exact fun s hready => ⟨exec_mon_starts hready, exec_monQ_starts hready,
    exec_monRetry_starts hready, exec_fwd_monitor_starts hready⟩

/-! ### The snapshot (10_state.md R34, 43_diagnostics.md R203) -/

/-- `LINES` as its four zeros followed by its lines, one bit at a time. -/
theorem State.linesByte_eq_concat (s : State) (strobe : Bool) :
    s.linesByte strobe =
      ((((0#4).concat s.ack).concat strobe).concat s.dir.bit).concat s.attn := rfl

theorem State.linesByte_bits (s : State) (strobe : Bool) :
    (s.linesByte strobe).getLsbD 0 = s.attn ∧ (s.linesByte strobe).getLsbD 1 = s.dir.bit ∧
      (s.linesByte strobe).getLsbD 2 = strobe ∧ (s.linesByte strobe).getLsbD 3 = s.ack := by
  simp only [State.linesByte_eq_concat, BitVec.getLsbD_concat]
  exact ⟨rfl, rfl, rfl, rfl⟩

theorem State.linesByte_high (s : State) (strobe : Bool) :
    (s.linesByte strobe).extractLsb' 4 4 = 0 := by
  apply BitVec.eq_of_getLsbD_eq
  intro k hk
  have hbit : (s.linesByte strobe).getLsbD (k + 4) = (0#4).getLsbD k := by
    simp only [State.linesByte_eq_concat, BitVec.getLsbD_concat_succ]
  rw [BitVec.getLsbD_extractLsb', Nat.add_comm, hbit]
  simp

theorem State.snapshotBuf_eq (s : State) (b : Bool) :
    s.snapshotBuf b =
      match s.build.snapshot with
      | .linesLink => #v[s.linesByte b, s.linkByte, 0, 0, 0, 0, 0, 0]
      | .other =>
        #v[(Config.otherSnapshot (s.linesByte b) s.linkByte).1,
          (Config.otherSnapshot (s.linesByte b) s.linkByte).2, 0, 0, 0, 0, 0, 0] := by
  unfold State.snapshotBuf State.snapshotBytes
  cases s.build.snapshot <;> rfl

/-- Settles O22: the reply is the snapshot of the state that the command was given to. -/
theorem diagSnapshotReply : Obligations.DiagSnapshotReply := by
  unfold Obligations.DiagSnapshotReply
  refine ⟨fun s b => ?bits, fun s b bs hidle hstrobes => ?reply⟩
  case bits =>
    obtain ⟨hattn, hdir, hstrobe, hack⟩ := s.linesByte_bits b
    have hsense : s.dir.bit = match s.dir with | .drive => false | .sense => true := by
      cases s.dir <;> rfl
    exact ⟨hattn, hdir.trans hsense, hstrobe, hack, s.linesByte_high b, s.linkByte_eq⟩
  case reply =>
    obtain ⟨hstrobe, htaken⟩ := State.strobe_cons hstrobes
    rw [exec_diagRd_snapshot hidle, hstrobe, htaken, State.snapshotBuf_eq]
    rfl

/-! ### The build parameters (00_scope.md R5) -/

/-- Settles O56: a ceiling is held as one less, and a value outside the range is none. -/
theorem ceilZeroIsNotAdmitted : Obligations.CeilZeroIsNotAdmitted := by
  unfold Obligations.CeilZeroIsNotAdmitted
  intro n ack layout
  by_cases h : 1 ≤ n ∧ n ≤ 0xFFFF
  · simp only [Build.ofParameters, dif_pos h, Build.ceil_toNat, and_self, and_true]
    omega
  · simp only [Build.ofParameters, dif_neg h]
    omega

/-! ### Power-on (70_reset_and_hazards.md R251) -/

/-- Settles O58: the values of the power-on state, `LINES` for either value of the live STROBE. -/
theorem powerOnValues : Obligations.PowerOnValues := by
  unfold Obligations.PowerOnValues
  have hlines (strobe : Bool) : State.reset.linesByte strobe &&& 0x0B = 0 := by
    cases strobe <;> decide
  exact ⟨rfl, rfl, rfl, rfl, rfl, rfl, State.reset_status_byte, rfl, rfl, rfl, rfl, rfl, hlines, rfl,
    rfl, rfl, rfl, rfl, rfl, rfl, rfl, rfl, rfl⟩

/-- The invariant of an idle block whose timer records are all 0 and which has ended no command. -/
theorem inv_of_cleared {s : State} (hack : s.ack = false) (hstatus : s.status = State.reset.status)
    (hseq : s.seq = .idle) (hmonT : s.monT = Vector.replicate 14 0)
    (hctlT : s.ctlT = Vector.replicate 13 0) (hxferT : s.xferT = 0) (hattempts : s.attempts = 0) :
    Inv s where
  ack_low := hack
  busy_iff := by simp [hstatus, hseq, State.reset]
  busy_fields := by simp [hstatus, State.reset]
  ok_code := by simp [hstatus, State.reset]
  timeout_flag := by simp [hstatus, State.reset]
  violation_length := by simp [hstatus, State.reset]
  command_held := by simp [hseq, Seq.command]
  countdown := by simp [hseq]
  monitor_slots := by simp [hmonT]
  control_slots := by simp [hctlT]
  xfer_slot := by simp [hxferT]
  attempts_le := by simp [hattempts]
  place := by simp [PlaceOk, hseq]

/-- Settles O50. -/
theorem invariantAtPowerOn : Obligations.InvariantAtPowerOn :=
  inv_of_cleared rfl rfl rfl rfl rfl rfl rfl

end Sys2Proof.Machine

/-! What one move of the block can do, said once: the exchange that ends a phase, what follows a phase of a
Monitor transaction, and the move as a whole (40_transfer_primitive.md R110 to R114, 41_transactions.md R141,
R142, R150, 42_dispatch.md R180). -/

namespace Sys2Proof.Machine

/-! ### Events (10_state.md R43, 40_transfer_primitive.md R113) -/

/-- From `s` to `t` the trace has grown by events among which are `polls` strobe polls and as many ack pulses
as data legs. -/
def Emits (polls : Nat) (s t : State) : Prop :=
  ∃ events, t.trace = s.trace ++ events ∧
    countEvents isAckPulse events = countEvents isDataLeg events ∧ countEvents isPoll events = polls

section

variable {s t u : State}

theorem Emits.of_trace_eq (h : t.trace = s.trace) : Emits 0 s t :=
  ⟨[], by rw [h, List.append_nil], rfl, rfl⟩

theorem Emits.refl (s : State) : Emits 0 s s := .of_trace_eq rfl

theorem Emits.trans {m n : Nat} (hst : Emits m s t) (htu : Emits n t u) : Emits (m + n) s u := by
  obtain ⟨es, htrace, hacks, hpolls⟩ := hst
  obtain ⟨es', htrace', hacks', hpolls'⟩ := htu
  refine ⟨es ++ es', by rw [htrace', htrace, List.append_assoc], ?_, ?_⟩
  · simp only [countEvents, List.countP_append] at hacks hacks' ⊢
    rw [hacks, hacks']
  · simp only [countEvents, List.countP_append] at hpolls hpolls' ⊢
    rw [hpolls, hpolls']

theorem Emits.trans_zero {m : Nat} (hst : Emits m s t) (htu : Emits 0 t u) : Emits m s u :=
  hst.trans htu

end

/-! ### The client's registers and the environment's records (10_state.md R22, R26, R27, R33, R44) -/

/-- What no move of the block writes. `LA` and `LL` are latched by an accept alone. -/
structure ClientKept (s t : State) : Prop where
  msgAddr : t.msgAddr = s.msgAddr
  cmd : t.cmd = s.cmd
  cmdArg : t.cmdArg = s.cmdArg
  link : t.link = s.link
  la : t.la = s.la
  ll : t.ll = s.ll
  refused : t.refused = s.refused
  build : t.build = s.build
  agenda : t.agenda = s.agenda
  reads : t.reads = s.reads

theorem ClientKept.refl (s : State) : ClientKept s s :=
  ⟨rfl, rfl, rfl, rfl, rfl, rfl, rfl, rfl, rfl, rfl⟩

/-! ### The exchange that ends a phase (40_transfer_primitive.md R110 to R114) -/

theorem State.dataLeg_shape (s : State) :
    ∃ ds d o tr, s.dataLeg = { s with dins := ds, draws := d, dout := o, ack := false, trace := tr } := by
  cases hmode : s.seq.mode with
  | write =>
    rw [State.dataLeg_write hmode]
    exact ⟨_, _, _, _, rfl⟩
  | read =>
    obtain ⟨ds, d, htaken⟩ := s.dinTaken_shape
    rw [State.dataLeg_read hmode, State.senseByte, htaken]
    exact ⟨_, _, _, _, rfl⟩

theorem State.endExchange_shape (s : State) :
    ∃ ds d o a tr st, s.endExchange =
      { s with dins := ds, draws := d, dout := o, ack := a, trace := tr, status := st } := by
  obtain ⟨-, -, h⟩ | ⟨-, -, h⟩ | ⟨-, -, h⟩ := s.endExchange_cases
  · exact ⟨_, _, _, _, _, _, h⟩
  · obtain ⟨_, _, _, _, hleg⟩ := s.markTimeout.dataLeg_shape
    exact ⟨_, _, _, _, _, _, h.trans hleg⟩
  · obtain ⟨_, _, _, _, hleg⟩ := s.dataLeg_shape
    exact ⟨_, _, _, _, _, _, h.trans hleg⟩

theorem State.dataLeg_emits (s : State) : Emits 0 s s.dataLeg := by
  cases hmode : s.seq.mode with
  | write =>
    rw [State.dataLeg_write hmode]
    exact ⟨[.drive s.byteOut, .ackPulse], by simp, rfl, rfl⟩
  | read =>
    rw [State.dataLeg_read hmode]
    exact ⟨[.sense s.din, .ackPulse], by simp, rfl, rfl⟩

theorem State.endExchange_emits (s : State) : Emits 0 s s.endExchange := by
  obtain ⟨-, -, h⟩ | ⟨-, -, h⟩ | ⟨-, -, h⟩ := s.endExchange_cases <;> rw [h]
  · exact .of_trace_eq rfl
  · exact s.markTimeout.dataLeg_emits
  · exact s.dataLeg_emits

/-- `e` is the state after the last poll of the phase in progress in `s` and the rest of its exchange, with
the result `ok` and the captured byte `v`. -/
structure PhaseEnd (s e : State) (ok : Bool) (v : Option Byte) : Prop where
  /-- An exchange uses up draws, counts down, records events, may set `TO`, and moves `DOUT` and `ACK`. -/
  shape : ∃ l ds d o a tr st c, e =
    { s with
      strobes := l, dins := ds, draws := d, dout := o, ack := a, trace := tr, status := st, tmr := c }
  /-- The strobe was seen, or the last count was used up (R111). -/
  polled : s.strobe = true ∧ e.tmr = s.tmr ∨ s.strobe = false ∧ s.tmr = 1 ∧ e.tmr = 0
  ok_eq : ok = decide (e.tmr ≠ 0)
  status_eq : e.status = if ok then s.status else s.status.markTimeout
  ack_low : s.ack = false → e.ack = false
  emits : Emits 1 s e
  /-- A read phase that saw the strobe has captured the byte on the data lines (R112). -/
  captures : ok = true → s.seq.mode = .read →
    ∃ b, v = some b ∧ ∀ b' bs, s.dins = b' :: bs → b = b'

/-- The end of the phase whose last poll has been made in `p`. -/
theorem phaseEnd_of_polled {s p : State} (sample : Bool)
    (hpolled : p = { s.strobeTaken.emit (.poll sample) with tmr := p.tmr })
    (hcount : s.strobe = true ∧ p.tmr = s.tmr ∨ s.strobe = false ∧ s.tmr = 1 ∧ p.tmr = 0) :
    PhaseEnd s p.endExchange p.phaseOk p.captured := by
  obtain ⟨l, n, htaken⟩ := s.strobeTaken_shape
  have hp : p =
      { s with strobes := l, draws := n, trace := s.trace ++ [.poll sample], tmr := p.tmr } := by
    rw [hpolled, htaken]
    rfl
  have hstatus : p.status = s.status := by rw [hp]
  refine ⟨?shape, by rwa [p.endExchange_tmr], by rw [p.endExchange_tmr]; rfl,
    by rw [p.endExchange_status, hstatus], fun hack => p.endExchange_ack ?ack, ?emits,
    fun hok hmode => ⟨p.din, State.captured_of_phaseOk hok (by rwa [hp]), fun b' bs hdins => ?din⟩⟩
  case shape =>
    obtain ⟨_, _, _, _, _, _, h⟩ := p.endExchange_shape
    rw [h, hp]
    exact ⟨_, _, _, _, _, _, _, _, rfl⟩
  case ack => rwa [hp]
  case emits =>
    have hpoll : Emits 1 s p := ⟨[.poll sample], by rw [hp], rfl, rfl⟩
    exact hpoll.trans_zero p.endExchange_emits
  case din => exact (State.din_cons (s := p) (by rw [hp]; exact hdins)).1

/-- A move of a running block waits on or ends the phase in progress. -/
theorem State.blockMove_cases {s : State} (hrun : s.seq ≠ .idle) :
    (s.strobe = false ∧ s.tmr - 1 ≠ 0 ∧
      s.blockMove = (s.strobeTaken.emit (.poll false)).countDown) ∨
    ∃ e ok v, PhaseEnd s e ok v ∧ s.blockMove = e.afterExchange ok v := by
  rw [s.blockMove_running hrun]
  obtain h | ⟨hstrobe, h⟩ | ⟨hstrobe, hcount, h⟩ := s.pollMove_cases
  · exact .inl h
  · refine .inr ⟨_, _, _, phaseEnd_of_polled true rfl (.inl ⟨hstrobe, ?_⟩), h⟩
    rw [State.emit_tmr, State.strobeTaken_tmr]
  · refine .inr ⟨_, _, _, phaseEnd_of_polled false rfl (.inr ⟨hstrobe, by bv_omega, ?_⟩), h⟩
    rw [State.countDown_tmr, State.emit_tmr, State.strobeTaken_tmr, hcount]

/-! ### What follows a phase of a Monitor transaction (41_transactions.md R150 to R155) -/

/-- After the exchange that left `e`, phase `ph` of a Monitor transaction is followed by phase `next`, which
starts in `u`. -/
inductive MonitorGoesOn (e : State) : MonPhase → Bool → Option Byte → State → MonPhase → Prop
  /-- A timeout of an address phase but the first is recorded only (R151). -/
  | addr (k k' : Fin 4) (ok : Bool) (v : Option Byte) (hsucc : k'.val = k.val + 1)
      (hgo : k = 0 → ok = true) :
      MonitorGoesOn e (.addr k) ok v (e.recordMonitor (.addr k)) (.addr k')
  | requestLength (ok : Bool) (v : Option Byte) :
      MonitorGoesOn e (.addr 3) ok v (e.recordMonitor (.addr 3)) .rql
  | responseLength (ok : Bool) (v : Option Byte) :
      MonitorGoesOn e .rql ok v (e.recordMonitor .rql).dirSense .rsl
  | payloadBegins (v : Option Byte) (hpos : 0 < (v.getD e.rlen).toNat)
      (hfits : (v.getD e.rlen).toNat ≤ 8) :
      MonitorGoesOn e .rsl true v ((e.recordMonitor .rsl).storeLength v).takeLength (.payload 0)
  | payloadGoesOn (i j : Fin 8) (v : Option Byte) (hnext : nextPayload i e.rlen = some j) :
      MonitorGoesOn e (.payload i) true v ((e.recordMonitor (.payload i)).storePayload i v)
        (.payload j)

/-- After the exchange that left `e`, phase `ph` of a Monitor transaction is its last one; `u` is the state
before the overwrite, and `cause` the code if the transaction has failed. -/
inductive MonitorEnds (e : State) : MonPhase → Bool → Option Byte → State → ErrCode → Prop
  | abort (v : Option Byte) :
      MonitorEnds e (.addr 0) false v (e.recordMonitor (.addr 0)).markTof.attnOff .peerTimeout
  | lengthTimeout (v : Option Byte) :
      MonitorEnds e .rsl false v
        ((e.recordMonitor .rsl).storeLength v).markTof.dirDrive.attnOff .peerTimeout
  | tooLong (v : Option Byte) (hlong : 8 < (v.getD e.rlen).toNat) :
      MonitorEnds e .rsl true v
        ((e.recordMonitor .rsl).storeLength v).markTof.dirDrive.attnOff .protocolViolation
  | noPayload (v : Option Byte) (hempty : v.getD e.rlen = 0) :
      MonitorEnds e .rsl true v
        ((e.recordMonitor .rsl).storeLength v).takeLength.dirDrive.attnOff .peerTimeout
  | payloadTimeout (i : Fin 8) (v : Option Byte) :
      MonitorEnds e (.payload i) false v
        ((e.recordMonitor (.payload i)).storePayload i v).markTof.dirDrive.attnOff .peerTimeout
  | payloadDone (i : Fin 8) (v : Option Byte) (hlast : nextPayload i e.rlen = none) :
      MonitorEnds e (.payload i) true v
        ((e.recordMonitor (.payload i)).storePayload i v).dirDrive.attnOff .peerTimeout

section

variable {e u : State} {ph next : MonPhase} {ok : Bool} {v : Option Byte} {cause : ErrCode}

theorem monitor_goesOn_or_ends (e : State) (ph : MonPhase) (ok : Bool) (v : Option Byte) :
    (∃ u next, MonitorGoesOn e ph ok v u next) ∨ ∃ u cause, MonitorEnds e ph ok v u cause := by
  cases ph with
  | addr k =>
    by_cases habort : k = 0 ∧ ok = false
    · obtain ⟨rfl, rfl⟩ := habort
      exact .inr ⟨_, _, .abort v⟩
    · by_cases hlast : k = 3
      · subst hlast
        exact .inl ⟨_, _, .requestLength ok v⟩
      · refine .inl ⟨_, _, .addr k ⟨k.val + 1, by omega⟩ ok v rfl fun hk => ?_⟩
        simpa [hk] using habort
  | rql => exact .inl ⟨_, _, .responseLength ok v⟩
  | rsl =>
    cases ok with
    | false => exact .inr ⟨_, _, .lengthTimeout v⟩
    | true =>
      by_cases hlong : 8 < (v.getD e.rlen).toNat
      · exact .inr ⟨_, _, .tooLong v hlong⟩
      · by_cases hempty : v.getD e.rlen = 0
        · exact .inr ⟨_, _, .noPayload v hempty⟩
        · exact .inl ⟨_, _, .payloadBegins v (by bv_omega) (Nat.not_lt.mp hlong)⟩
  | payload i =>
    cases ok with
    | false => exact .inr ⟨_, _, .payloadTimeout i v⟩
    | true =>
      cases hnext : nextPayload i e.rlen with
      | some j => exact .inl ⟨_, _, .payloadGoesOn i j v hnext⟩
      | none => exact .inr ⟨_, _, .payloadDone i v hnext⟩

/-- The machine's continuation of a phase that another phase follows. -/
theorem MonitorGoesOn.afterMonitorPhase_eq (h : MonitorGoesOn e ph ok v u next) (c : MonCmd) :
    e.afterMonitorPhase c ph ok v = u.startPhase (.monitor c next) := by
  cases h with
  | addr k k' _ _ hsucc hgo =>
    have hnext : nextAddr k = some k' := by
      rw [nextAddr, dif_pos (by omega)]
      exact congrArg some (Fin.ext hsucc.symm)
    rw [State.afterMonitorPhase, State.afterMonitorAddr_goesOn _ _ hgo]
    simp [State.afterMonitorAddr, hnext]
  | requestLength => rfl
  | responseLength => rfl
  | payloadBegins _ hpos hfits =>
    have hfirst : firstPayload (v.getD e.rlen) = some 0 := if_neg (by bv_omega)
    simp [State.afterMonitorPhase, State.afterResponseLength, hfirst, Nat.not_lt.mpr hfits]
  | payloadGoesOn i j _ hnext => simp [State.afterMonitorPhase, State.afterResponsePayload, hnext]

/-- The machine's continuation of the last phase of a transaction. -/
theorem MonitorEnds.afterMonitorPhase_eq (h : MonitorEnds e ph ok v u cause) (c : MonCmd) :
    e.afterMonitorPhase c ph ok v = u.endMonitor c cause := by
  cases h with
  | abort => rfl
  | lengthTimeout => rfl
  | tooLong _ hlong =>
    simp [State.afterMonitorPhase, State.afterResponseLength, State.monitorEpilogue, hlong]
  | noPayload _ hempty =>
    have hfirst : firstPayload 0#8 = none := rfl
    simp [State.afterMonitorPhase, State.afterResponseLength, State.monitorEpilogue, hempty, hfirst]
  | payloadTimeout => rfl
  | payloadDone i _ hlast =>
    simp [State.afterMonitorPhase, State.afterResponsePayload, State.monitorEpilogue, hlast]

/-- Between two phases of a Monitor transaction the slot is recorded, and `DIR`, `RLEN`, `MSG_LEN` and
`MSG_BUF` may be written. -/
theorem MonitorGoesOn.shape (h : MonitorGoesOn e ph ok v u next) :
    ∃ d tr len r buf, u =
      { e with
        monT := e.monT.set ph.slot e.tmr, dir := d, trace := tr, msgLen := len, rlen := r
        msgBuf := buf } := by
  cases h <;> exact ⟨_, _, _, _, _, rfl⟩

theorem State.dirDrive_attnOff (s : State) :
    s.dirDrive.attnOff =
      { s with dir := .drive, attn := false, trace := s.trace ++ [.dirDrive] ++ [.attnOff] } := rfl

/-- At the end of a Monitor transaction the slot is recorded and attention goes off. -/
theorem MonitorEnds.shape (h : MonitorEnds e ph ok v u cause) :
    ∃ d tr len r buf f, u =
      { e with
        monT := e.monT.set ph.slot e.tmr, attn := false, dir := d, trace := tr, msgLen := len
        rlen := r, msgBuf := buf, tof := f } := by
  cases h with
  | abort => exact ⟨_, _, _, _, _, _, rfl⟩
  | lengthTimeout | tooLong | noPayload | payloadTimeout | payloadDone =>
    rw [State.dirDrive_attnOff]
    exact ⟨_, _, _, _, _, _, rfl⟩

theorem MonitorGoesOn.emits (h : MonitorGoesOn e ph ok v u next) : Emits 0 e u := by
  cases h with
  | responseLength => exact ⟨[.dirSense], rfl, rfl, rfl⟩
  | addr | requestLength | payloadBegins | payloadGoesOn => exact .of_trace_eq rfl

theorem MonitorEnds.trace_eq (h : MonitorEnds e ph ok v u cause) :
    u.trace = e.trace ++ [.attnOff] ∨ u.trace = e.trace ++ [.dirDrive] ++ [.attnOff] := by
  cases h with
  | abort => exact .inl rfl
  | lengthTimeout | tooLong | noPayload | payloadTimeout | payloadDone => exact .inr rfl

theorem MonitorEnds.emits (h : MonitorEnds e ph ok v u cause) : Emits 0 e u := by
  obtain htrace | htrace := h.trace_eq
  · exact ⟨[.attnOff], htrace, rfl, rfl⟩
  · exact ⟨[.dirDrive, .attnOff], htrace.trans (List.append_assoc ..), rfl, rfl⟩

/-- A Monitor transaction fails by a timeout, or by a response length above 8 (R153, 60_exceptions.md
R225). -/
theorem MonitorEnds.failed (h : MonitorEnds e ph ok v u cause) (htof : u.tof = true)
    (hstart : e.tof = false) :
    (ok = false ∧ cause = .peerTimeout) ∨
      (ok = true ∧ ph = .rsl ∧ cause = .protocolViolation ∧ 8 < u.rlen.toNat) := by
  cases h with
  | abort | lengthTimeout | payloadTimeout => exact .inl ⟨rfl, rfl⟩
  | tooLong _ hlong => exact .inr ⟨rfl, rfl, rfl, hlong⟩
  | noPayload | payloadDone => cases hstart.symm.trans htof

/-- A Monitor transaction succeeds with an empty reply, or with the last byte of one (R153, R154). -/
theorem MonitorEnds.succeeded (h : MonitorEnds e ph ok v u cause) (htof : u.tof = false) :
    (u.rlen = 0 ∧ u.msgLen = u.rlen) ∨
      ∃ i, ph = .payload i ∧ u.rlen = e.rlen ∧ u.msgLen = e.msgLen := by
  cases h with
  | abort | lengthTimeout | payloadTimeout | tooLong => cases htof
  | noPayload _ hempty => exact .inl ⟨hempty, rfl⟩
  | payloadDone i => exact .inr ⟨i, rfl, rfl, rfl⟩

/-- The lines are turned to drive at the end of a transaction; only the aborted one has never left it
(R155). -/
theorem MonitorEnds.dir_drive (h : MonitorEnds e ph ok v u cause) {c : MonCmd}
    (hdir : e.dir = modeDir (Seq.monitor c ph).mode) : u.dir = .drive := by
  cases h with
  | abort => exact hdir
  | lengthTimeout | tooLong | noPayload | payloadTimeout | payloadDone => rfl

/-- The phase that follows one of a Monitor transaction has the next slot (10_state.md R38, R40). -/
theorem MonitorGoesOn.next_slot (h : MonitorGoesOn e ph ok v u next) :
    next.slot.val = ph.slot.val + 1 := by
  cases h with
  | addr _ _ _ _ hsucc => exact hsucc
  | requestLength | responseLength | payloadBegins => rfl
  | payloadGoesOn i j _ hnext =>
    have hj := (nextPayload_some hnext).1
    show 6 + j.val = 6 + i.val + 1
    omega

end

/-! ### One move of the block -/

/-- One move in phase `ph` of a Control transaction (41_transactions.md R142). -/
inductive ControlStep (s : State) (c : CtlCmd) (ph : CtlPhase) : State → Prop
  | waits (hstrobe : s.strobe = false) (hcount : s.tmr - 1 ≠ 0) :
      ControlStep s c ph (s.strobeTaken.emit (.poll false)).countDown
  | aborts (e : State) (v : Option Byte) (hend : PhaseEnd s e false v) (hfirst : ph = .addr 0) :
      ControlStep s c ph ((e.recordControl ph).attnOff.finish false .peerTimeout)
  | goesOn (e : State) (ok : Bool) (v : Option Byte) (next : CtlPhase) (hend : PhaseEnd s e ok v)
      (hnext : ph.next s.ll = some next) :
      ControlStep s c ph ((e.recordControl ph).startPhase (.control c next))
  | ends (e : State) (ok : Bool) (v : Option Byte) (hend : PhaseEnd s e ok v)
      (hnext : ph.next s.ll = none) :
      ControlStep s c ph (e.recordControl ph).endControl

/-- One move in phase `ph` of a Monitor transaction (41_transactions.md R150, R156 to R158, 42_dispatch.md
R180). -/
inductive MonitorStep (s : State) (c : MonCmd) (ph : MonPhase) : State → Prop
  | waits (hstrobe : s.strobe = false) (hcount : s.tmr - 1 ≠ 0) :
      MonitorStep s c ph (s.strobeTaken.emit (.poll false)).countDown
  | goesOn (e u : State) (ok : Bool) (v : Option Byte) (next : MonPhase) (hend : PhaseEnd s e ok v)
      (hgo : MonitorGoesOn e ph ok v u next) :
      MonitorStep s c ph (u.startPhase (.monitor c next))
  | succeeds (e u : State) (ok : Bool) (v : Option Byte) (cause : ErrCode)
      (hend : PhaseEnd s e ok v) (hlast : MonitorEnds e ph ok v u cause) (htof : u.tof = false) :
      MonitorStep s c ph (u.finish true .none)
  | retries (e u : State) (ok : Bool) (v : Option Byte) (cause : ErrCode) (hend : PhaseEnd s e ok v)
      (hlast : MonitorEnds e ph ok v u cause) (htof : u.tof = true) (hretries : c.retries = true)
      (hq : u.q = true) :
      MonitorStep s c ph (u.startMonitor c false)
  | failsQuiet (e u : State) (ok : Bool) (v : Option Byte) (cause : ErrCode)
      (hend : PhaseEnd s e ok v) (hlast : MonitorEnds e ph ok v u cause) (htof : u.tof = true)
      (hretries : c.retries = false) (hq : u.q = true) :
      MonitorStep s c ph (u.finish false cause)
  | fails (e u : State) (ok : Bool) (v : Option Byte) (cause : ErrCode)
      (hend : PhaseEnd s e ok v) (hlast : MonitorEnds e ph ok v u cause) (htof : u.tof = true)
      (hq : u.q = false) :
      MonitorStep s c ph (u.suppressMessage.finish false cause)

/-- One move of the block (00_scope.md R10). -/
inductive BlockStep (s : State) : State → Prop
  | idle (hseq : s.seq = .idle) : BlockStep s s
  | xferWaits (m : Mode) (hseq : s.seq = .xfer m) (hstrobe : s.strobe = false)
      (hcount : s.tmr - 1 ≠ 0) :
      BlockStep s (s.strobeTaken.emit (.poll false)).countDown
  | xferEnds (m : Mode) (e : State) (ok : Bool) (v : Option Byte) (hseq : s.seq = .xfer m)
      (hend : PhaseEnd s e ok v) :
      BlockStep s (e.endXfer ok v)
  | control (c : CtlCmd) (ph : CtlPhase) (t : State) (hseq : s.seq = .control c ph)
      (hmove : ControlStep s c ph t) : BlockStep s t
  | monitor (c : MonCmd) (ph : MonPhase) (t : State) (hseq : s.seq = .monitor c ph)
      (hmove : MonitorStep s c ph t) : BlockStep s t

section

variable {s e : State} {ok : Bool} {v : Option Byte}

theorem PhaseEnd.seq_eq (h : PhaseEnd s e ok v) : e.seq = s.seq := by
  obtain ⟨_, _, _, _, _, _, _, _, rfl⟩ := h.shape
  rfl

theorem PhaseEnd.ll_eq (h : PhaseEnd s e ok v) : e.ll = s.ll := by
  obtain ⟨_, _, _, _, _, _, _, _, rfl⟩ := h.shape
  rfl

theorem controlStep {c : CtlCmd} {ph : CtlPhase} (hseq : s.seq = .control c ph) :
    ControlStep s c ph s.blockMove := by
  obtain ⟨hstrobe, hcount, h⟩ | ⟨e, ok, v, hend, h⟩ :=
    State.blockMove_cases (s := s) (by simp [hseq])
  · rw [h]
    exact .waits hstrobe hcount
  · have hll := hend.ll_eq
    rw [h, e.afterExchange_control (hend.seq_eq.trans hseq)]
    obtain ⟨hfirst, rfl, hafter⟩ | ⟨next, hnext, hafter⟩ | ⟨hnext, hafter⟩ :=
      e.afterControlPhase_cases c ph ok
    · rw [hafter]
      exact .aborts e v hend hfirst
    · rw [hafter]
      exact .goesOn e ok v next hend (by rwa [← hll])
    · rw [hafter]
      exact .ends e ok v hend (by rwa [← hll])

theorem monitorStep {c : MonCmd} {ph : MonPhase} (hseq : s.seq = .monitor c ph) :
    MonitorStep s c ph s.blockMove := by
  obtain ⟨hstrobe, hcount, h⟩ | ⟨e, ok, v, hend, h⟩ :=
    State.blockMove_cases (s := s) (by simp [hseq])
  · rw [h]
    exact .waits hstrobe hcount
  · rw [h, e.afterExchange_monitor (hend.seq_eq.trans hseq)]
    obtain ⟨u, next, hgo⟩ | ⟨u, cause, hlast⟩ := monitor_goesOn_or_ends e ph ok v
    · rw [hgo.afterMonitorPhase_eq]
      exact .goesOn e u ok v next hend hgo
    · rw [hlast.afterMonitorPhase_eq]
      obtain ⟨htof, hafter⟩ | ⟨htof, hretries, hq, hafter⟩ | ⟨htof, hq, hretries, hafter⟩ |
        ⟨htof, hq, hafter⟩ := u.endMonitor_cases c cause
      · rw [hafter]
        exact .succeeds e u ok v cause hend hlast htof
      · rw [hafter]
        exact .retries e u ok v cause hend hlast htof hretries hq
      · rw [hafter]
        exact .failsQuiet e u ok v cause hend hlast htof hretries hq
      · rw [hafter]
        exact .fails e u ok v cause hend hlast htof hq

theorem blockStep (s : State) : BlockStep s s.blockMove := by
  cases hseq : s.seq with
  | idle =>
    rw [s.blockMove_idle hseq]
    exact .idle hseq
  | xfer m =>
    obtain ⟨hstrobe, hcount, h⟩ | ⟨e, ok, v, hend, h⟩ :=
      State.blockMove_cases (s := s) (by simp [hseq])
    · rw [h]
      exact .xferWaits m hseq hstrobe hcount
    · have hafter : e.afterExchange ok v = e.endXfer ok v := by
        rw [State.afterExchange, hend.seq_eq, hseq]
      rw [h, hafter]
      exact .xferEnds m e ok v hseq hend
  | control c ph => exact .control c ph _ hseq (controlStep hseq)
  | monitor c ph => exact .monitor c ph _ hseq (monitorStep hseq)

end

end Sys2Proof.Machine

/-! What a command and a step can do, said once (30_encoding.md R84, 00_scope.md R10). -/

namespace Sys2Proof.Machine

/-! ### The accept of a command (30_encoding.md R84, 60_exceptions.md R221) -/

/-- The codes of a reject; the other errors end a command that has run (60_exceptions.md R223). -/
def ErrCode.atAccept : ErrCode → Bool
  | .illegalOp | .reservedField | .badSelect | .lineState | .malformedLength => true
  | .none | .peerTimeout | .protocolViolation => false

/-- What a `CMD` write can do. -/
inductive CommandStep (s : State) : State → Prop
  | refused : CommandStep s s.refuseAccess
  | rejected (c : Byte) (code : ErrCode) (hcode : code.atAccept = true) :
      CommandStep s ((s.takeCommand c).reject code)
  /-- SETDIR and SETATTN, with their one event (40_transfer_primitive.md R119, R120). -/
  | setsLine (i : Instr) (d : Dir) (attn : Bool) (event : WireEvent)
      (hevent : event ∈ [.dirDrive, .dirSense, .attnOn, .attnOff]) :
      CommandStep s
        ({ s.accepted i with dir := d, attn := attn, trace := s.trace ++ [event] }.finish true .none)
  /-- DIAG_RD (43_diagnostics.md R200). -/
  | replies (i : Instr) (l : List Bool) (n : Nat) (buf : Vector Byte 8) (len : Byte) :
      CommandStep s
        ({ s.accepted i with strobes := l, draws := n, msgBuf := buf, msgLen := len }.finish true .none)
  | startsXfer (m : Mode) (hidle : s.status.busy = false) (hdir : s.dir = modeDir m) :
      CommandStep s ((s.accepted (.xfer m)).startPhase (.xfer m))
  | startsControl (c : CtlCmd) (hready : TransactionReady s) :
      CommandStep s ((s.accepted c.instr).latch.startControl c)
  | startsMonitor (c : MonCmd) (quiet : Bool) (hready : TransactionReady s)
      (hattempt : AttemptOk c quiet 1) :
      CommandStep s ((s.accepted c.instr).latch.startMonitor c quiet)

section

variable {s t : State}

theorem atAccept_of_txnCheck {code : ErrCode} (h : s.txnCheck = some code) :
    code.atAccept = true := by
  unfold State.txnCheck at h
  split at h
  · cases h
    rfl
  · split at h
    · cases h
      rfl
    · cases h

/-- A transaction command is refused, rejected, or starts its transaction. -/
theorem commandStep_of_transaction {i : Instr} {rule : State → State}
    (h : s.accept i s.txnCheck rule = .next t)
    (hstart : TransactionReady s → CommandStep s (rule (s.accepted i))) : CommandStep s t := by
  obtain ⟨-, rfl⟩ | ⟨-, code, hcheck, rfl⟩ | ⟨hidle, hcheck, rfl⟩ := State.accept_cases h
  · exact .refused
  · exact .rejected _ code (atAccept_of_txnCheck hcheck)
  · obtain ⟨hlines, hlen⟩ := State.txnCheck_none.mp hcheck
    exact hstart ⟨hidle, hlines, hlen⟩

theorem commandStep_of_exec {i : Instr} (h : exec i s = .next t) : CommandStep s t := by
  cases i with
  | xfer m =>
    rw [exec_xfer] at h
    obtain ⟨-, rfl⟩ | ⟨-, code, hcheck, rfl⟩ | ⟨hidle, hcheck, rfl⟩ := State.accept_cases h
    · exact .refused
    · refine .rejected _ code ?_
      have hdir : s.dir ≠ modeDir m := fun hdir => by
        rw [State.xferCheck_none.mpr hdir] at hcheck
        cases hcheck
      rw [State.xferCheck_wrong hdir] at hcheck
      cases hcheck
      rfl
    · exact .startsXfer m hidle (State.xferCheck_none.mp hcheck)
  | setdir d =>
    rw [exec_setdir] at h
    obtain ⟨-, rfl⟩ | ⟨-, code, hcheck, rfl⟩ | ⟨-, -, rfl⟩ := State.accept_cases h
    · exact .refused
    · cases hcheck
    · cases d with
      | drive => exact .setsLine (.setdir .drive) .drive s.attn .dirDrive (by simp)
      | sense => exact .setsLine (.setdir .sense) .sense s.attn .dirSense (by simp)
  | setattn level =>
    rw [exec_setattn] at h
    obtain ⟨-, rfl⟩ | ⟨-, code, hcheck, rfl⟩ | ⟨-, -, rfl⟩ := State.accept_cases h
    · exact .refused
    · cases hcheck
    · cases level with
      | true => exact .setsLine (.setattn true) s.dir true .attnOn (by simp)
      | false => exact .setsLine (.setattn false) s.dir false .attnOff (by simp)
  | diagRd sel =>
    rw [exec_diagRd] at h
    obtain ⟨-, rfl⟩ | ⟨-, code, hcheck, rfl⟩ | ⟨-, -, rfl⟩ := State.accept_cases h
    · exact .refused
    · refine .rejected _ code ?_
      unfold diagCheck at hcheck
      split at hcheck
      · cases hcheck
        rfl
      · cases hcheck
    · split
      · obtain ⟨l, n, htaken⟩ := (s.accepted (.diagRd sel)).strobeTaken_shape
        rw [State.snapshotReply, htaken]
        exact .replies (.diagRd sel) l n _ 2
      · exact .replies (.diagRd sel) s.strobes s.draws _ 8
  | ctrl =>
    rw [exec_ctrl] at h
    exact commandStep_of_transaction h fun hready => .startsControl .ctrl hready
  | mon =>
    rw [exec_mon] at h
    exact commandStep_of_transaction h fun hready => .startsMonitor .mon false hready ⟨rfl, rfl⟩
  | monQ =>
    rw [exec_monQ] at h
    exact commandStep_of_transaction h fun hready => .startsMonitor .monQ true hready ⟨rfl, rfl⟩
  | monRetry =>
    rw [exec_monRetry] at h
    exact commandStep_of_transaction h fun hready =>
      .startsMonitor .monRetry true hready (.inl ⟨rfl, rfl⟩)
  | fwd e =>
    cases hdir : s.msgDir with
    | monitor =>
      rw [exec_fwd_monitor e s hdir] at h
      exact commandStep_of_transaction h fun hready =>
        .startsMonitor (.fwd e) true hready (.inl ⟨rfl, rfl⟩)
    | control =>
      rw [exec_fwd_control e s hdir] at h
      exact commandStep_of_transaction h fun hready => .startsControl (.fwd e) hready

theorem commandStep_of_commandWrite {c : Byte} (h : s.commandWrite c = .next t) :
    CommandStep s t := by
  obtain ⟨i, -, hexec⟩ | ⟨e, -, rfl⟩ := State.commandWrite_cases h
  · exact commandStep_of_exec hexec
  · cases hbusy : s.status.busy with
    | true =>
      rw [State.acceptIllegal_busy c e hbusy]
      exact .refused
    | false =>
      rw [State.acceptIllegal_idle e hbusy]
      exact .rejected c _ (by cases e <;> rfl)

end

/-! ### One step (00_scope.md R10) -/

/-- What a move can do, in the state that no longer holds it. -/
inductive MoveStep (s : State) : Move → State → Prop
  | block : MoveStep s .block s.blockMove
  | refused (m : Move) : MoveStep s m s.refuseAccess
  | reads (off width : Nat) (l : List Bool) (n : Nat) (record : List (Nat × Byte)) :
      MoveStep s (.read off width) { s with strobes := l, draws := n, reads := record }
  | writes (off width : Nat) (v : Byte) (r : WinReg) (hidle : s.status.busy = false) :
      MoveStep s (.write off width v) (s.writeReg r v)
  | commands (off width : Nat) (v : Byte) (t : State) (hcommand : CommandStep s t) :
      MoveStep s (.write off width v) t
  /-- The client goes on waiting while the block moves (30_encoding.md R99). -/
  | waits (hdone : s.status.done = false) :
      MoveStep s .await (s.blockMove.withAgenda (.await :: s.agenda))
  | waited (hdone : s.status.done = true) : MoveStep s .await s
  | reset : MoveStep s .reset s.resetEvent

theorem moveStep_of_move {s t : State} {m : Move} (h : s.move m = .next t) : MoveStep s m t := by
  cases m with
  | block =>
    cases h
    exact .block
  | read off width =>
    cases h
    obtain ⟨-, hread⟩ | ⟨-, hread⟩ | ⟨-, hread⟩ | ⟨-, hread⟩ := s.clientRead_cases off width <;>
      rw [hread]
    · exact .refused _
    · exact .reads off width s.strobes _ _
    · obtain ⟨l, n, htaken⟩ := s.strobeTaken_shape
      rw [htaken]
      exact .reads off width l n _
    · exact .reads off width s.strobes s.draws _
  | write off width v =>
    obtain rfl | ⟨-, hcommand⟩ | ⟨hidle, -, rfl⟩ := State.clientWrite_cases h
    · exact .refused _
    · exact .commands off width v t (commandStep_of_commandWrite hcommand)
    · exact .writes off width v _ hidle
  | await =>
    cases h
    unfold State.awaitDone
    split
    · next hdone => exact .waited hdone
    · next hdone => exact .waits (Bool.eq_false_of_not_eq_true hdone)
  | reset =>
    cases h
    exact .reset

/-- A step is the first move of the agenda, the block's where there is none. -/
theorem moveStep_of_step {s t : State} (h : step s = .next t) :
    ∃ m rest, (s.agenda = m :: rest ∨ m = .block) ∧ MoveStep (s.withAgenda rest) m t := by
  obtain ⟨hagenda, rfl⟩ | ⟨m, rest, hagenda, hmove⟩ := step_cases h
  · have hnone : s.withAgenda [] = s := by rw [← hagenda]; rfl
    refine ⟨.block, [], .inr rfl, ?_⟩
    rw [hnone]
    exact .block
  · exact ⟨m, rest, .inl hagenda, moveStep_of_move hmove⟩

/-! ### What a move of the block leaves unchanged, and its events -/

section

variable {s t u : State}

theorem ClientKept.trans (hst : ClientKept s t) (htu : ClientKept t u) : ClientKept s u :=
  ⟨htu.msgAddr.trans hst.msgAddr, htu.cmd.trans hst.cmd, htu.cmdArg.trans hst.cmdArg,
    htu.link.trans hst.link, htu.la.trans hst.la, htu.ll.trans hst.ll,
    htu.refused.trans hst.refused, htu.build.trans hst.build, htu.agenda.trans hst.agenda,
    htu.reads.trans hst.reads⟩

theorem State.failedPoll_clientKept (s : State) :
    ClientKept s (s.strobeTaken.emit (.poll false)).countDown := by
  obtain ⟨_, _, htaken⟩ := s.strobeTaken_shape
  rw [htaken]
  exact ⟨rfl, rfl, rfl, rfl, rfl, rfl, rfl, rfl, rfl, rfl⟩

theorem State.failedPoll_emits (s : State) :
    Emits 1 s (s.strobeTaken.emit (.poll false)).countDown :=
  ⟨[.poll false], by simp, rfl, rfl⟩

section

variable {e : State} {ok : Bool} {v : Option Byte} {ph next : MonPhase} {cause : ErrCode}

theorem PhaseEnd.clientKept (h : PhaseEnd s e ok v) : ClientKept s e := by
  obtain ⟨_, _, _, _, _, _, _, _, rfl⟩ := h.shape
  exact ⟨rfl, rfl, rfl, rfl, rfl, rfl, rfl, rfl, rfl, rfl⟩

theorem MonitorGoesOn.clientKept (h : MonitorGoesOn e ph ok v u next) : ClientKept e u := by
  obtain ⟨_, _, _, _, _, rfl⟩ := h.shape
  exact ⟨rfl, rfl, rfl, rfl, rfl, rfl, rfl, rfl, rfl, rfl⟩

theorem MonitorEnds.clientKept (h : MonitorEnds e ph ok v u cause) : ClientKept e u := by
  obtain ⟨_, _, _, _, _, _, rfl⟩ := h.shape
  exact ⟨rfl, rfl, rfl, rfl, rfl, rfl, rfl, rfl, rfl, rfl⟩

end

theorem State.endXfer_clientKept (s : State) (ok : Bool) (v : Option Byte) :
    ClientKept s (s.endXfer ok v) := by
  unfold State.endXfer
  split <;> exact ⟨rfl, rfl, rfl, rfl, rfl, rfl, rfl, rfl, rfl, rfl⟩

theorem State.endXfer_trace (s : State) (ok : Bool) (v : Option Byte) :
    (s.endXfer ok v).trace = s.trace := by
  unfold State.endXfer
  split <;> rfl

theorem ControlStep.clientKept {c : CtlCmd} {ph : CtlPhase} (h : ControlStep s c ph t) :
    ClientKept s t := by
  cases h with
  | waits => exact s.failedPoll_clientKept
  | aborts e v hend | goesOn e ok v next hend | ends e ok v hend =>
    exact hend.clientKept.trans ⟨rfl, rfl, rfl, rfl, rfl, rfl, rfl, rfl, rfl, rfl⟩

theorem MonitorStep.clientKept {c : MonCmd} {ph : MonPhase} (h : MonitorStep s c ph t) :
    ClientKept s t := by
  cases h with
  | waits => exact s.failedPoll_clientKept
  | goesOn e u ok v next hend hgo =>
    exact (hend.clientKept.trans hgo.clientKept).trans
      ⟨rfl, rfl, rfl, rfl, rfl, rfl, rfl, rfl, rfl, rfl⟩
  | succeeds e u ok v cause hend hlast | retries e u ok v cause hend hlast
  | failsQuiet e u ok v cause hend hlast | fails e u ok v cause hend hlast =>
    exact (hend.clientKept.trans hlast.clientKept).trans
      ⟨rfl, rfl, rfl, rfl, rfl, rfl, rfl, rfl, rfl, rfl⟩

theorem BlockStep.clientKept (h : BlockStep s t) : ClientKept s t := by
  cases h with
  | idle => exact .refl s
  | xferWaits => exact s.failedPoll_clientKept
  | xferEnds m e ok v hseq hend => exact hend.clientKept.trans (e.endXfer_clientKept ok v)
  | control c ph t hseq hmove => exact hmove.clientKept
  | monitor c ph t hseq hmove => exact hmove.clientKept

theorem ControlStep.emits {c : CtlCmd} {ph : CtlPhase} (h : ControlStep s c ph t) : Emits 1 s t := by
  cases h with
  | waits => exact s.failedPoll_emits
  | goesOn e ok v next hend => exact hend.emits
  | aborts e v hend | ends e ok v hend =>
    exact hend.emits.trans_zero ⟨[.attnOff], rfl, rfl, rfl⟩

theorem MonitorStep.emits {c : MonCmd} {ph : MonPhase} (h : MonitorStep s c ph t) : Emits 1 s t := by
  cases h with
  | waits => exact s.failedPoll_emits
  | goesOn e u ok v next hend hgo => exact hend.emits.trans_zero hgo.emits
  | retries e u ok v cause hend hlast =>
    exact (hend.emits.trans_zero hlast.emits).trans_zero ⟨[.attnOn], rfl, rfl, rfl⟩
  | succeeds e u ok v cause hend hlast | failsQuiet e u ok v cause hend hlast
  | fails e u ok v cause hend hlast => exact hend.emits.trans_zero hlast.emits

/-- A move of a running block makes one poll. -/
theorem BlockStep.emits (h : BlockStep s t) (hrun : s.seq ≠ .idle) : Emits 1 s t := by
  cases h with
  | idle hseq => exact absurd hseq hrun
  | xferWaits => exact s.failedPoll_emits
  | xferEnds m e ok v hseq hend =>
    exact hend.emits.trans_zero (.of_trace_eq (e.endXfer_trace ok v))
  | control c ph t hseq hmove => exact hmove.emits
  | monitor c ph t hseq hmove => exact hmove.emits

theorem State.blockMove_emits (s : State) : ∃ n, Emits n s s.blockMove := by
  by_cases hseq : s.seq = .idle
  · rw [s.blockMove_idle hseq]
    exact ⟨0, .refl s⟩
  · exact ⟨1, (blockStep s).emits hseq⟩

/-! ### The trace of a step (10_state.md R43, 40_transfer_primitive.md R113) -/

theorem CommandStep.emits (h : CommandStep s t) : Emits 0 s t := by
  cases h with
  | refused | rejected | replies | startsXfer => exact .of_trace_eq rfl
  | startsControl | startsMonitor => exact ⟨[.attnOn], rfl, rfl, rfl⟩
  | setsLine i d attn event hevent =>
    simp only [List.mem_cons, List.not_mem_nil, or_false] at hevent
    refine ⟨[event], rfl, ?_, ?_⟩
    · obtain rfl | rfl | rfl | rfl := hevent <;> rfl
    · obtain rfl | rfl | rfl | rfl := hevent <;> rfl

theorem State.writeReg_trace (s : State) (r : WinReg) (v : Byte) :
    (s.writeReg r v).trace = s.trace := by
  cases r <;> rfl

theorem MoveStep.emits {m : Move} (h : MoveStep s m t) : ∃ n, Emits n s t := by
  cases h with
  | block => exact s.blockMove_emits
  | refused | reads | waited => exact ⟨0, .of_trace_eq rfl⟩
  | writes off width v r => exact ⟨0, .of_trace_eq (s.writeReg_trace r v)⟩
  | commands off width v t hcommand => exact ⟨0, hcommand.emits⟩
  | waits => exact s.blockMove_emits
  | reset => exact ⟨0, [.reset], rfl, rfl, rfl⟩

theorem step_emits (h : step s = .next t) : ∃ n, Emits n s t := by
  obtain ⟨m, rest, -, hmove⟩ := moveStep_of_step h
  exact hmove.emits

/-- Settles O53: a step only adds events. -/
theorem traceOnlyGrows : Obligations.TraceOnlyGrows := by
  unfold Obligations.TraceOnlyGrows
  intro s t h
  obtain ⟨n, events, htrace, -⟩ := step_emits h
  exact ⟨events, htrace⟩

/-- Settles O31: among the events that a step adds are as many ack pulses as data legs. -/
theorem oneAckPulsePerDataLeg : Obligations.OneAckPulsePerDataLeg := by
  unfold Obligations.OneAckPulsePerDataLeg
  intro s t h
  obtain ⟨n, events, htrace, hacks, -⟩ := step_emits h
  simp only [countEvents] at hacks ⊢
  rw [htrace, List.countP_append, List.countP_append, hacks]
  omega

/-! ### The mark `REFUSED` (10_state.md R44) -/

theorem CommandStep.refused_kept (h : CommandStep s t) (hrefused : s.refused = true) :
    t.refused = true := by
  cases h with
  | refused => rfl
  | rejected | setsLine | replies | startsXfer | startsControl | startsMonitor => exact hrefused

theorem State.writeReg_refused (s : State) (r : WinReg) (v : Byte) :
    (s.writeReg r v).refused = s.refused := by
  cases r <;> rfl

theorem MoveStep.refused_kept {m : Move} (h : MoveStep s m t) (hrefused : s.refused = true) :
    t.refused = true := by
  cases h with
  | refused => rfl
  | block | waits => exact (blockStep s).clientKept.refused.trans hrefused
  | reads | waited | reset => exact hrefused
  | writes off width v r => exact (s.writeReg_refused r v).trans hrefused
  | commands off width v t hcommand => exact hcommand.refused_kept hrefused

/-- Settles O54: a step sets the mark or leaves it. -/
theorem refusedIsNeverCleared : Obligations.RefusedIsNeverCleared := by
  unfold Obligations.RefusedIsNeverCleared
  intro s t h hrefused
  obtain ⟨m, rest, -, hmove⟩ := moveStep_of_step h
  exact hmove.refused_kept hrefused

end

end Sys2Proof.Machine

/-! The invariant of the machine is kept by every step (10_state.md R28, R38 to R41, 40_transfer_primitive.md
R111, R113, R115, 60_exceptions.md R222, R223). -/

namespace Sys2Proof.Machine

/-! ### The two halves of the invariant: a running command, and none -/

/-- The part of the invariant that holds whether a command runs or not. -/
structure RecordsOk (s : State) : Prop where
  ack_low : s.ack = false
  monitor_slots : ∀ k : Fin 14, s.monT[k].toNat ≤ s.ceil.toNat
  control_slots : ∀ k : Fin 13, s.ctlT[k].toNat ≤ s.ceil.toNat
  xfer_slot : s.xferT.toNat ≤ s.ceil.toNat
  attempts_le : s.attempts.toNat ≤ 2

/-- The part of the invariant of the running command `i` that speaks of no phase: `STATUS` shows `BUSY`, and
`TO` at most. -/
structure Running (i : Instr) (s : State) : Prop extends RecordsOk s where
  busy : s.status.busy = true
  done : s.status.done = false
  not_ok : s.status.ok = false
  ecode : s.status.ecode = .none
  cmd : s.cmd = encode i

section

variable {s t u e : State} {i : Instr}

theorem Inv.records (h : Inv s) : RecordsOk s := { h with }

theorem Inv.running (h : Inv s) (hseq : s.seq.command = some i) : Running i s := by
  have hbusy : s.status.busy = true := h.busy_iff.mpr fun hidle => by
    rw [hidle] at hseq
    cases hseq
  obtain ⟨hdone, hok, hcode⟩ := h.busy_fields hbusy
  exact
    { h.records with
      busy := hbusy, done := hdone, not_ok := hok, ecode := hcode, cmd := h.command_held i hseq }

theorem Running.inv (h : Running i s) (hseq : s.seq.command = some i)
    (htmr : 1 ≤ s.tmr.toNat ∧ s.tmr.toNat ≤ s.ceil.toNat) (hplace : PlaceOk s) : Inv s where
  ack_low := h.ack_low
  busy_iff := by
    refine ⟨fun _ hidle => ?_, fun _ => h.busy⟩
    rw [hidle] at hseq
    cases hseq
  busy_fields := fun _ => ⟨h.done, h.not_ok, h.ecode⟩
  ok_code := fun _ => h.ecode
  timeout_flag := fun hcode => by cases h.ecode.symm.trans hcode
  violation_length := fun hcode => by cases h.ecode.symm.trans hcode
  command_held := fun j hj => by
    rw [hseq] at hj
    cases hj
    exact h.cmd
  countdown := fun _ => htmr
  monitor_slots := h.monitor_slots
  control_slots := h.control_slots
  xfer_slot := h.xfer_slot
  attempts_le := h.attempts_le
  place := hplace

theorem RecordsOk.inv_idle (h : RecordsOk s) (hseq : s.seq = .idle) (hbusy : s.status.busy = false)
    (hok : s.status.ok = true → s.status.ecode = .none)
    (htimeout : s.status.ecode = .peerTimeout → s.status.timeout = true)
    (hlength : s.status.ecode = .protocolViolation → 8 < s.rlen.toNat) : Inv s :=
  { h with
    busy_iff := by simp [hbusy, hseq]
    busy_fields := by simp [hbusy]
    ok_code := hok
    timeout_flag := htimeout
    violation_length := hlength
    command_held := by simp [hseq, Seq.command]
    countdown := by simp [hseq]
    place := by simp [PlaceOk, hseq] }

/-! ### The ways a command begins and ends -/

theorem RecordsOk.inv_finish {ok : Bool} {code : ErrCode} (h : RecordsOk s)
    (hok : ok = true → code = .none) (htimeout : code = .peerTimeout → s.status.timeout = true)
    (hlength : code = .protocolViolation → 8 < s.rlen.toNat) : Inv (s.finish ok code) :=
  RecordsOk.inv_idle { h with } rfl rfl hok htimeout hlength

theorem RecordsOk.inv_reject {code : ErrCode} (h : RecordsOk s) (c : Byte)
    (hcode : code.atAccept = true) : Inv ((s.takeCommand c).reject code) := by
  refine RecordsOk.inv_idle (s := (s.takeCommand c).reject code)
    { h with attempts_le := Nat.zero_le 2 } rfl rfl nofun (fun htimeout => ?_) fun hviolation => ?_
  · have hcode' : code = .peerTimeout := htimeout
    rw [hcode'] at hcode
    cases hcode
  · have hcode' : code = .protocolViolation := hviolation
    rw [hcode'] at hcode
    cases hcode

theorem RecordsOk.running_accepted (h : RecordsOk s) (i : Instr) : Running i (s.accepted i) :=
  { h with
    attempts_le := Nat.zero_le 2, busy := rfl, done := rfl, not_ok := rfl, ecode := rfl, cmd := rfl }

theorem Running.inv_startPhase {place : Seq} (h : Running i s) (hplace : place.command = some i)
    (hok : PlaceOk (s.startPhase place)) : Inv (s.startPhase place) :=
  Running.inv (s := s.startPhase place) { h with } hplace ⟨s.ceil_toNat_pos, le_rfl⟩ hok

theorem Running.inv_startMonitor {c : MonCmd} {quiet : Bool} (h : Running c.instr s)
    (hdir : s.dir = .drive) (hll : s.ll.toNat ≤ 8) (hattempt : AttemptOk c quiet (s.attempts + 1))
    (hattempts : (s.attempts + 1).toNat ≤ 2) : Inv (s.startMonitor c quiet) := by
  refine Running.inv (i := c.instr) (s := s.startMonitor c quiet)
    { h with attempts_le := hattempts, monitor_slots := fun k => ?_ } rfl
    ⟨s.ceil_toNat_pos, le_rfl⟩ ⟨hdir, rfl, hll, rfl, hattempt, nofun⟩
  simp

/-! ### The end of a phase keeps the records -/

theorem slots_le_of_set {m n : Nat} (a : Vector Count m) (j k : Fin m) (x : Count)
    (ha : ∀ k : Fin m, a[k].toNat ≤ n) (hx : x.toNat ≤ n) : (a.set j x)[k].toNat ≤ n := by
  rw [Fin.getElem_fin, Vector.getElem_set]
  split
  · exact hx
  · exact ha k

theorem PhaseEnd.status_shape {ok : Bool} {v : Option Byte} (hend : PhaseEnd s e ok v) :
    ∃ timeout, e.status = { s.status with timeout := timeout } := by
  rw [hend.status_eq]
  split <;> exact ⟨_, rfl⟩

theorem PhaseEnd.running {ok : Bool} {v : Option Byte} (hend : PhaseEnd s e ok v)
    (h : Running i s) : Running i e := by
  obtain ⟨_, hstatus⟩ := hend.status_shape
  have hack := hend.ack_low h.ack_low
  obtain ⟨_, _, _, _, _, _, _, _, rfl⟩ := hend.shape
  exact
    { h with
      ack_low := hack
      busy := (congrArg Status.busy hstatus).trans h.busy
      done := (congrArg Status.done hstatus).trans h.done
      not_ok := (congrArg Status.ok hstatus).trans h.not_ok
      ecode := (congrArg Status.ecode hstatus).trans h.ecode }

/-- A phase leaves at most what its countdown held. -/
theorem PhaseEnd.tmr_le {ok : Bool} {v : Option Byte} (hend : PhaseEnd s e ok v)
    (htmr : s.tmr.toNat ≤ s.ceil.toNat) : e.tmr.toNat ≤ e.ceil.toNat := by
  have hbuild : e.ceil = s.ceil := congrArg Build.ceil hend.clientKept.build
  rw [hbuild]
  obtain ⟨-, h⟩ | ⟨-, -, h⟩ := hend.polled
  · rwa [h]
  · rw [h]
    exact Nat.zero_le _

theorem PhaseEnd.timeout_of_failed {v : Option Byte} (hend : PhaseEnd s e false v) :
    e.status.timeout = true := by
  rw [hend.status_eq]
  rfl

theorem Running.recordControl (h : Running i e) (ph : CtlPhase)
    (htmr : e.tmr.toNat ≤ e.ceil.toNat) : Running i (e.recordControl ph) :=
  { h with
    control_slots := fun k => slots_le_of_set e.ctlT ph.slot k e.tmr h.control_slots htmr }

section

variable {ph next : MonPhase} {ok : Bool} {v : Option Byte} {cause : ErrCode}

theorem MonitorGoesOn.running (hgo : MonitorGoesOn e ph ok v u next) (h : Running i e)
    (htmr : e.tmr.toNat ≤ e.ceil.toNat) : Running i u := by
  obtain ⟨_, _, _, _, _, rfl⟩ := hgo.shape
  exact
    { h with
      monitor_slots := fun k => slots_le_of_set e.monT ph.slot k e.tmr h.monitor_slots htmr }

theorem MonitorEnds.running (hlast : MonitorEnds e ph ok v u cause) (h : Running i e)
    (htmr : e.tmr.toNat ≤ e.ceil.toNat) : Running i u := by
  obtain ⟨_, _, _, _, _, _, rfl⟩ := hlast.shape
  exact
    { h with
      monitor_slots := fun k => slots_le_of_set e.monT ph.slot k e.tmr h.monitor_slots htmr }

/-- The lines fit the phase that follows (40_transfer_primitive.md R115, 41_transactions.md R152). -/
theorem MonitorGoesOn.dir_eq (hgo : MonitorGoesOn e ph ok v u next) {c : MonCmd}
    (hdir : e.dir = modeDir (Seq.monitor c ph).mode) :
    u.dir = modeDir (Seq.monitor c next).mode := by
  cases hgo with
  | addr | requestLength | payloadBegins | payloadGoesOn => exact hdir
  | responseLength => rfl

/-- A payload phase that follows lies inside a reply of at most 8 bytes (41_transactions.md R153, R154). -/
theorem MonitorGoesOn.payload_inside (hgo : MonitorGoesOn e ph ok v u next)
    (hpayload : ∀ i, ph = .payload i → e.rlen.toNat ≤ 8 ∧ e.msgLen = e.rlen) :
    ∀ j, next = .payload j → j.val < u.rlen.toNat ∧ u.rlen.toNat ≤ 8 ∧ u.msgLen = u.rlen := by
  intro j hj
  cases hgo with
  | addr | requestLength | responseLength => cases hj
  | payloadBegins _ hpos hfits =>
    cases hj
    exact ⟨hpos, hfits, rfl⟩
  | payloadGoesOn i _ _ hnext =>
    cases hj
    exact ⟨(nextPayload_some hnext).2, hpayload i rfl⟩

end

end

/-! ### A move of the block keeps the invariant -/

section

variable {s t : State}

theorem Inv.failedPoll (h : Inv s) (hrun : s.seq ≠ .idle) (hcount : s.tmr - 1 ≠ 0) :
    Inv (s.strobeTaken.emit (.poll false)).countDown := by
  obtain ⟨l, n, htaken⟩ := s.strobeTaken_shape
  obtain ⟨hpos, hle⟩ := h.countdown hrun
  rw [htaken]
  refine { h with countdown := fun _ => ?_ }
  show 1 ≤ (s.tmr - 1).toNat ∧ (s.tmr - 1).toNat ≤ s.ceil.toNat
  generalize s.ceil = ceil at hle ⊢
  constructor <;> bv_omega

theorem Inv.control_place {c : CtlCmd} {ph : CtlPhase} (h : Inv s) (hseq : s.seq = .control c ph) :
    s.dir = .drive ∧ s.attn = true ∧ s.ll.toNat ≤ 8 ∧ s.attempts = 0 ∧
      ∀ i, ph = .payload i → i.val < s.ll.toNat := by
  have hplace := h.place
  rw [PlaceOk, hseq] at hplace
  exact hplace

theorem Inv.monitor_place {c : MonCmd} {ph : MonPhase} (h : Inv s) (hseq : s.seq = .monitor c ph) :
    s.dir = modeDir (Seq.monitor c ph).mode ∧ s.attn = true ∧ s.ll.toNat ≤ 8 ∧ s.tof = false ∧
      AttemptOk c s.q s.attempts ∧
      ∀ i, ph = .payload i → i.val < s.rlen.toNat ∧ s.rlen.toNat ≤ 8 ∧ s.msgLen = s.rlen := by
  have hplace := h.place
  simp only [PlaceOk, hseq] at hplace
  exact hplace

theorem Inv.xferEnds {m : Mode} {e : State} {ok : Bool} {v : Option Byte} (h : Inv s)
    (hseq : s.seq = .xfer m) (hend : PhaseEnd s e ok v) : Inv (e.endXfer ok v) := by
  have hrun : Running (.xfer m) e := hend.running (h.running (by rw [hseq]; rfl))
  have htmr : e.tmr.toNat ≤ e.ceil.toNat := hend.tmr_le (h.countdown (by simp [hseq])).2
  have hrecorded : RecordsOk (e.recordXfer v) := { hrun with xfer_slot := htmr }
  unfold State.endXfer
  cases ok with
  | true => exact hrecorded.inv_finish (fun _ => rfl) nofun nofun
  | false => exact hrecorded.inv_finish nofun (fun _ => hend.timeout_of_failed) nofun

theorem ControlStep.inv {c : CtlCmd} {ph : CtlPhase} (hmove : ControlStep s c ph t) (h : Inv s)
    (hseq : s.seq = .control c ph) : Inv t := by
  have hrun := h.running (show s.seq.command = some c.instr by rw [hseq]; rfl)
  have htmr := (h.countdown (by simp [hseq])).2
  obtain ⟨hdir, hattn, hll, hattempts, -⟩ := h.control_place hseq
  cases hmove with
  | waits hstrobe hcount => exact h.failedPoll (by simp [hseq]) hcount
  | aborts e v hend =>
    have hrecorded := (hend.running hrun).recordControl ph (hend.tmr_le htmr)
    exact RecordsOk.inv_finish (s := (e.recordControl ph).attnOff) { hrecorded with } nofun
      (fun _ => hend.timeout_of_failed) nofun
  | ends e ok v hend =>
    have hrecorded := (hend.running hrun).recordControl ph (hend.tmr_le htmr)
    exact RecordsOk.inv_finish (s := (e.recordControl ph).attnOff) { hrecorded with }
      (fun _ => rfl) nofun nofun
  | goesOn e ok v next hend hnext =>
    have hrecorded := (hend.running hrun).recordControl ph (hend.tmr_le htmr)
    obtain ⟨_, _, _, _, _, _, _, _, rfl⟩ := hend.shape
    exact hrecorded.inv_startPhase rfl
      ⟨hdir, hattn, hll, hattempts, (CtlPhase.next_slot hnext).2⟩

/-- A first attempt that fails leaves room for one more (42_dispatch.md R181). -/
theorem AttemptOk.next {c : MonCmd} {attempts : Byte} (h : AttemptOk c true attempts)
    (hretries : c.retries = true) : attempts = 1 ∧ AttemptOk c false (attempts + 1) := by
  cases c with
  | mon | monQ => cases hretries
  | monRetry | fwd =>
    obtain ⟨-, rfl⟩ | ⟨hq, -⟩ := h
    · exact ⟨rfl, .inr ⟨rfl, rfl⟩⟩
    · cases hq

theorem MonitorStep.inv {c : MonCmd} {ph : MonPhase} (hmove : MonitorStep s c ph t) (h : Inv s)
    (hseq : s.seq = .monitor c ph) : Inv t := by
  have hrun := h.running (show s.seq.command = some c.instr by rw [hseq]; rfl)
  have htmr := (h.countdown (by simp [hseq])).2
  obtain ⟨hdir, hattn, hll, htof, hattempt, hpayload⟩ := h.monitor_place hseq
  cases hmove with
  | waits hstrobe hcount => exact h.failedPoll (by simp [hseq]) hcount
  | goesOn e u ok v next hend hgo =>
    have hrecorded := hgo.running (hend.running hrun) (hend.tmr_le htmr)
    obtain ⟨_, _, _, _, _, _, _, _, rfl⟩ := hend.shape
    have hdir' := hgo.dir_eq (c := c) hdir
    have hpayload' := hgo.payload_inside fun i hi => (hpayload i hi).2
    obtain ⟨_, _, _, _, _, rfl⟩ := hgo.shape
    exact hrecorded.inv_startPhase rfl ⟨hdir', hattn, hll, htof, hattempt, hpayload'⟩
  | succeeds e u ok v cause hend hlast =>
    have hrecorded := hlast.running (hend.running hrun) (hend.tmr_le htmr)
    exact hrecorded.toRecordsOk.inv_finish (fun _ => rfl) nofun nofun
  | retries e u ok v cause hend hlast _ hretries hq =>
    have hrecorded := hlast.running (hend.running hrun) (hend.tmr_le htmr)
    obtain ⟨_, _, _, _, _, _, _, _, rfl⟩ := hend.shape
    have hdir' := hlast.dir_drive (c := c) hdir
    obtain ⟨_, _, _, _, _, _, rfl⟩ := hlast.shape
    rw [show s.q = true from hq] at hattempt
    obtain ⟨hone, hsecond⟩ := hattempt.next hretries
    refine hrecorded.inv_startMonitor hdir' hll hsecond ?_
    show (s.attempts + 1).toNat ≤ 2
    rw [hone]
    decide
  | failsQuiet e u ok v cause hend hlast htofu | fails e u ok v cause hend hlast htofu =>
    have hrecorded := hlast.running (hend.running hrun) (hend.tmr_le htmr)
    have hfailed := hlast.failed htofu (by
      obtain ⟨_, _, _, _, _, _, _, _, rfl⟩ := hend.shape
      exact htof)
    have hstatus : u.status = e.status := by
      obtain ⟨_, _, _, _, _, _, rfl⟩ := hlast.shape
      rfl
    refine RecordsOk.inv_finish { hrecorded.toRecordsOk with } nofun (fun hcode => ?_) fun hcode => ?_
    · obtain ⟨rfl, -⟩ | ⟨-, -, hviolation, -⟩ := hfailed
      · exact (congrArg Status.timeout hstatus).trans hend.timeout_of_failed
      · cases hcode.symm.trans hviolation
    · obtain ⟨-, htimeout⟩ | ⟨-, -, -, hlong⟩ := hfailed
      · cases hcode.symm.trans htimeout
      · exact hlong

theorem BlockStep.inv (hmove : BlockStep s t) (h : Inv s) : Inv t := by
  cases hmove with
  | idle => exact h
  | xferWaits m hseq hstrobe hcount => exact h.failedPoll (by simp [hseq]) hcount
  | xferEnds m e ok v hseq hend => exact h.xferEnds hseq hend
  | control c ph t hseq hmove => exact hmove.inv h hseq
  | monitor c ph t hseq hmove => exact hmove.inv h hseq

theorem Inv.blockMove (h : Inv s) : Inv s.blockMove := (blockStep s).inv h

/-! ### A step keeps the invariant -/

theorem CommandStep.inv (hmove : CommandStep s t) (h : Inv s) : Inv t := by
  cases hmove with
  | refused => exact { h with }
  | rejected c code hcode => exact h.records.inv_reject c hcode
  | setsLine i | replies i =>
    exact RecordsOk.inv_finish { h.records.running_accepted i with } (fun _ => rfl) nofun nofun
  | startsXfer m hidle hdir =>
    exact (h.records.running_accepted (.xfer m)).inv_startPhase rfl ⟨hdir, rfl⟩
  | startsControl c hready =>
    obtain ⟨-, ⟨hdir, -⟩, hlen⟩ := hready
    have hrun := h.records.running_accepted c.instr
    refine Running.inv (i := c.instr) (s := (s.accepted c.instr).latch.startControl c)
      { hrun with control_slots := fun k => ?_ } rfl ⟨s.ceil_toNat_pos, le_rfl⟩
      ⟨hdir, rfl, hlen, rfl, nofun⟩
    simp
  | startsMonitor c quiet hready hattempt =>
    obtain ⟨-, ⟨hdir, -⟩, hlen⟩ := hready
    have hrun := h.records.running_accepted c.instr
    exact Running.inv_startMonitor (s := (s.accepted c.instr).latch) { hrun with } hdir hlen hattempt
      (show (0 + 1 : Byte).toNat ≤ 2 by decide)

theorem Inv.seq_idle (h : Inv s) (hidle : s.status.busy = false) : s.seq = .idle := by
  by_contra hrun
  rw [h.busy_iff.mpr hrun] at hidle
  cases hidle

theorem Inv.writeReg (h : Inv s) (hidle : s.status.busy = false) (r : WinReg) (v : Byte) :
    Inv (s.writeReg r v) := by
  obtain ⟨_, _, _, _, _, _, hframe⟩ := s.writeReg_frame r v
  rw [hframe]
  exact RecordsOk.inv_idle { h.records with } (h.seq_idle hidle) hidle h.ok_code h.timeout_flag
    h.violation_length

theorem MoveStep.inv {m : Move} (hmove : MoveStep s m t) (h : Inv s) : Inv t := by
  cases hmove with
  | block => exact h.blockMove
  | refused | reads => exact { h with }
  | writes off width v r hidle => exact h.writeReg hidle r v
  | commands off width v t hcommand => exact hcommand.inv h
  | waits => exact { h.blockMove with }
  | waited => exact h
  | reset => exact inv_of_cleared rfl rfl rfl rfl rfl rfl rfl

/-- Settles O51: the moves of the block keep the invariant phase by phase, a command begins with the records
in order and ends with a consistent `STATUS`, and the client and the reset do not meet a running phase. -/
theorem invariantKeptByEveryStep : Obligations.InvariantKeptByEveryStep := by
  unfold Obligations.InvariantKeptByEveryStep
  intro s t h hstep
  obtain ⟨m, rest, -, hmove⟩ := moveStep_of_step hstep
  exact hmove.inv { h with }

end

end Sys2Proof.Machine

/-! What one move of the block can do to the lines, the message, the attempts and the timer arrays
(41_transactions.md R141, R144, R153 to R160, 42_dispatch.md R181, R183, 43_diagnostics.md R205,
60_exceptions.md R225 to R227). -/

namespace Sys2Proof.Machine

/-! ### The phase in progress and the attempt -/

section

variable {s t e u : State} {ok : Bool} {v : Option Byte} {ph : MonPhase} {cause : ErrCode}

theorem State.failedPoll_seq (s : State) :
    (s.strobeTaken.emit (.poll false)).countDown.seq = s.seq := by
  simp

/-- With counts left, a phase ends by the strobe or by a failed poll, and not otherwise (R111). -/
theorem PhaseEnd.ok_eq_strobe (h : PhaseEnd s e ok v) (hpos : 1 ≤ s.tmr.toNat) : ok = s.strobe := by
  rw [h.ok_eq]
  obtain ⟨hstrobe, htmr⟩ | ⟨hstrobe, -, htmr⟩ := h.polled
  · have hcount : s.tmr ≠ 0 := by bv_omega
    rw [hstrobe, htmr]
    exact decide_eq_true hcount
  · rw [hstrobe, htmr]
    rfl

theorem PhaseEnd.tmr_of_failed (h : PhaseEnd s e false v) (hpos : 1 ≤ s.tmr.toNat) :
    s.tmr = 1 := by
  have hstrobe := h.ok_eq_strobe hpos
  obtain ⟨hseen, -⟩ | ⟨-, hlast, -⟩ := h.polled
  · rw [hseen] at hstrobe
    cases hstrobe
  · exact hlast

theorem PhaseEnd.tmr_eq_zero (h : PhaseEnd s e false v) : e.tmr = 0 := by
  simpa using h.ok_eq

theorem PhaseEnd.tmr_ne_zero (h : PhaseEnd s e true v) : e.tmr ≠ 0 := by
  simpa using h.ok_eq

/-- A transaction leaves the attempt it is in and, up to its end, the direction of the message. -/
theorem MonitorEnds.attempt_kept (hlast : MonitorEnds e ph ok v u cause) (hend : PhaseEnd s e ok v) :
    u.q = s.q ∧ u.attempts = s.attempts ∧ u.msgDir = s.msgDir ∧ u.status = e.status := by
  obtain ⟨_, _, _, _, _, _, _, _, rfl⟩ := hend.shape
  obtain ⟨_, _, _, _, _, _, rfl⟩ := hlast.shape
  exact ⟨rfl, rfl, rfl, rfl⟩

theorem PhaseEnd.tof_eq (hend : PhaseEnd s e ok v) : e.tof = s.tof := by
  obtain ⟨_, _, _, _, _, _, _, _, rfl⟩ := hend.shape
  rfl

theorem PhaseEnd.dir_eq (hend : PhaseEnd s e ok v) : e.dir = s.dir := by
  obtain ⟨_, _, _, _, _, _, _, _, rfl⟩ := hend.shape
  rfl

theorem PhaseEnd.msgBuf_eq (hend : PhaseEnd s e ok v) : e.msgBuf = s.msgBuf := by
  obtain ⟨_, _, _, _, _, _, _, _, rfl⟩ := hend.shape
  rfl

theorem PhaseEnd.slots_eq (hend : PhaseEnd s e ok v) : e.monT = s.monT ∧ e.ctlT = s.ctlT := by
  obtain ⟨_, _, _, _, _, _, _, _, rfl⟩ := hend.shape
  exact ⟨rfl, rfl⟩

/-! ### The lines at the end (41_transactions.md R155, R160 (d)) -/

theorem ControlStep.linesDefault {c : CtlCmd} {ph : CtlPhase} (hmove : ControlStep s c ph t)
    (h : Inv s) (hseq : s.seq = .control c ph) (hidle : t.seq = .idle) : LinesDefault t := by
  obtain ⟨hdir, -⟩ := h.control_place hseq
  cases hmove with
  | waits =>
    rw [s.failedPoll_seq, hseq] at hidle
    cases hidle
  | goesOn => cases hidle
  | aborts e v hend | ends e ok v hend => exact ⟨hend.dir_eq.trans hdir, rfl⟩

theorem MonitorEnds.linesDefault (hlast : MonitorEnds e ph ok v u cause) {c : MonCmd}
    (hdir : e.dir = modeDir (Seq.monitor c ph).mode) : LinesDefault u := by
  refine ⟨hlast.dir_drive hdir, ?_⟩
  obtain ⟨_, _, _, _, _, _, rfl⟩ := hlast.shape
  rfl

theorem MonitorStep.linesDefault {c : MonCmd} (hmove : MonitorStep s c ph t) (h : Inv s)
    (hseq : s.seq = .monitor c ph) (hidle : t.seq = .idle) : LinesDefault t := by
  obtain ⟨hdir, -⟩ := h.monitor_place hseq
  cases hmove with
  | waits =>
    rw [s.failedPoll_seq, hseq] at hidle
    cases hidle
  | goesOn | retries => cases hidle
  | succeeds e u ok v cause hend hlast | failsQuiet e u ok v cause hend hlast
  | fails e u ok v cause hend hlast => exact hlast.linesDefault (c := c) (hend.dir_eq.trans hdir)

theorem BlockStep.linesDefault (hmove : BlockStep s t) (h : Inv s) (hxfer : ∀ m, s.seq ≠ .xfer m)
    (hrun : s.seq ≠ .idle) (hidle : t.seq = .idle) : LinesDefault t := by
  cases hmove with
  | idle hseq => exact absurd hseq hrun
  | xferWaits m hseq | xferEnds m _ _ _ hseq => exact absurd hseq (hxfer m)
  | control c ph t hseq hmove => exact hmove.linesDefault h hseq hidle
  | monitor c ph t hseq hmove => exact hmove.linesDefault h hseq hidle

/-- Settles O42: every end of a transaction drives and lowers ATTN, and the invariant says that a Control
transaction has driven all along. -/
theorem linesRestoredOnEveryExit : Obligations.LinesRestoredOnEveryExit := by
  unfold Obligations.LinesRestoredOnEveryExit
  exact fun s h hxfer hrun hidle => (blockStep s).linesDefault h hxfer hrun hidle

/-! ### The outcomes of a Monitor transaction (41_transactions.md R153, R156, R160) -/

theorem MonitorStep.outcomes {c : MonCmd} (hmove : MonitorStep s c ph t) (h : Inv s)
    (hseq : s.seq = .monitor c ph) (hidle : t.seq = .idle) :
    (t.status.ok = true → t.msgLen.toNat ≤ 8 ∧ t.msgLen = t.rlen ∧ t.msgDir = s.msgDir) ∧
    (t.status.ok = false → s.q = false → t.msgDir = .control ∧ t.msgLen = 0) ∧
    (t.status.ok = false → s.q = true → t.msgDir = s.msgDir) ∧
    (t.status.ok = false →
      t.status.ecode = .peerTimeout ∨ t.status.ecode = .protocolViolation) := by
  obtain ⟨-, -, -, htof, -, hpayload⟩ := h.monitor_place hseq
  cases hmove with
  | waits =>
    rw [s.failedPoll_seq, hseq] at hidle
    cases hidle
  | goesOn | retries => cases hidle
  | succeeds e u ok v cause hend hlast htofu =>
    obtain ⟨-, -, hmsgDir, -⟩ := hlast.attempt_kept hend
    refine ⟨fun _ => ?_, nofun, nofun, nofun⟩
    have hlen : u.msgLen = u.rlen ∧ u.rlen.toNat ≤ 8 := by
      obtain ⟨hrlen, hlen⟩ | ⟨i, rfl, hrlen, hlen⟩ := hlast.succeeded htofu
      · exact ⟨hlen, by rw [hrlen]; decide⟩
      · obtain ⟨_, _, _, _, _, _, _, _, rfl⟩ := hend.shape
        obtain ⟨-, hfits, hheld⟩ := hpayload i rfl
        exact ⟨by rw [hlen, hrlen]; exact hheld, by rw [hrlen]; exact hfits⟩
    obtain ⟨heq, hfits⟩ := hlen
    exact ⟨by rw [← heq] at hfits; exact hfits, heq, hmsgDir⟩
  | failsQuiet e u ok v cause hend hlast htofu hretries hq =>
    obtain ⟨hkept, -, hmsgDir, -⟩ := hlast.attempt_kept hend
    refine ⟨nofun, fun _ hloud => ?_, fun _ _ => hmsgDir, fun _ => ?_⟩
    · rw [← hkept, hq] at hloud
      cases hloud
    · exact (hlast.failed htofu (hend.tof_eq.trans htof)).imp And.right fun hlong => hlong.2.2.1
  | fails e u ok v cause hend hlast htofu hq =>
    obtain ⟨hkept, -⟩ := hlast.attempt_kept hend
    refine ⟨nofun, fun _ _ => ⟨rfl, rfl⟩, fun _ hquiet => ?_, fun _ => ?_⟩
    · rw [← hkept, hq] at hquiet
      cases hquiet
    · exact (hlast.failed htofu (hend.tof_eq.trans htof)).imp And.right fun hlong => hlong.2.2.1

/-- Settles O43. -/
theorem monitorOutcomes : Obligations.MonitorOutcomes := by
  unfold Obligations.MonitorOutcomes
  exact fun s c ph h hseq hidle => (monitorStep hseq).outcomes h hseq hidle

theorem State.endMonitor_fails {c : MonCmd} (cause : ErrCode) (htof : u.tof = true)
    (hq : u.q = false) : u.endMonitor c cause = u.suppressMessage.finish false cause := by
  obtain ⟨h, -⟩ | ⟨-, -, h, -⟩ | ⟨-, h, -⟩ | ⟨-, -, h⟩ := u.endMonitor_cases c cause
  · cases htof.symm.trans h
  · cases hq.symm.trans h
  · cases hq.symm.trans h
  · exact h

/-- Settles O44: such a phase ends its transaction, which is not a quiet one, as too long. -/
theorem longResponseIsAProtocolViolation : Obligations.LongResponseIsAProtocolViolation := by
  unfold Obligations.LongResponseIsAProtocolViolation
  intro s n bs rest h hseq hstrobes hdins hlong
  have hstrobe := (State.strobe_cons hstrobes).1
  have hpos := (h.countdown (by simp [hseq])).1
  obtain ⟨-, -, -, -, ⟨hq, -⟩, -⟩ := h.monitor_place hseq
  obtain ⟨hfailed, -⟩ | ⟨e, ok, v, hend, hmove⟩ := State.blockMove_cases (s := s) (by simp [hseq])
  · cases hstrobe.symm.trans hfailed
  obtain rfl : ok = true := (hend.ok_eq_strobe hpos).trans hstrobe
  obtain ⟨b, rfl, hb⟩ := hend.captures rfl (by rw [hseq]; rfl)
  obtain rfl : b = n := hb n bs hdins
  have hlast := MonitorEnds.tooLong (e := e) (some b) hlong
  rw [e.afterExchange_monitor (hend.seq_eq.trans hseq), hlast.afterMonitorPhase_eq,
    State.endMonitor_fails _ rfl ((hlast.attempt_kept hend).1.trans hq)] at hmove
  have hstatus : e.status = s.status := hend.status_eq
  have htmr : e.tmr = s.tmr := by
    obtain ⟨-, htmr⟩ | ⟨hfailed, -⟩ := hend.polled
    · exact htmr
    · cases hstrobe.symm.trans hfailed
  have hslots : e.monT.set MonPhase.rsl.slot e.tmr = s.monT.set 5 s.tmr := by
    rw [hend.slots_eq.1, htmr]
    rfl
  rw [hmove]
  exact ⟨rfl, by simp [Status.finished, hstatus], rfl, rfl, rfl, ⟨rfl, rfl⟩,
    by simp [hend.msgBuf_eq], hslots⟩

/-! ### The attempts (42_dispatch.md R181) -/

theorem AttemptOk.of_not_retries {c : MonCmd} {quiet : Bool} {attempts : Byte}
    (h : AttemptOk c quiet attempts) (hretries : c.retries = false) : attempts = 1 := by
  cases c with
  | mon | monQ => exact h.2
  | monRetry | fwd => cases hretries

theorem AttemptOk.second {c : MonCmd} {attempts : Byte} (h : AttemptOk c false attempts)
    (hretries : c.retries = true) : attempts = 2 := by
  cases c with
  | mon | monQ => cases hretries
  | monRetry | fwd =>
    obtain ⟨hq, -⟩ | ⟨-, h⟩ := h
    · cases hq
    · exact h

/-- What the retry law asks of a move that changes `ATTEMPTS`. -/
def SecondAttemptBegins (s : State) (c : MonCmd) (ph : MonPhase) (t : State) : Prop :=
  (s.strobe = false ∧ s.tmr = 1 ∨ s.strobe = true ∧ ph = .rsl ∧ 8 < t.rlen.toNat) ∧
    c.retries = true ∧ s.q = true ∧ s.attempts = 1 ∧ t.attempts = 2 ∧ t.q = false ∧
    t.seq = .monitor c (.addr 0) ∧ t.monT = Vector.replicate 14 0 ∧ t.msgDir = s.msgDir ∧
    ∃ events, t.trace = s.trace ++ events ++ [.attnOff, .attnOn]

theorem MonitorEnds.secondAttemptBegins {c : MonCmd} (hlast : MonitorEnds e ph ok v u cause)
    (hend : PhaseEnd s e ok v) (h : Inv s) (hseq : s.seq = .monitor c ph) (htofu : u.tof = true)
    (hretries : c.retries = true) (hq : u.q = true) :
    SecondAttemptBegins s c ph (u.startMonitor c false) := by
  obtain ⟨-, -, -, htof, hattempt, -⟩ := h.monitor_place hseq
  obtain ⟨hkept, hattempts, hmsgDir, -⟩ := hlast.attempt_kept hend
  have hpos := (h.countdown (by simp [hseq])).1
  have hstrobe := hend.ok_eq_strobe hpos
  rw [hkept] at hq
  rw [hq] at hattempt
  have hone := (hattempt.next hretries).1
  have htwo : u.attempts + 1 = 2 := by
    rw [hattempts, hone]
    rfl
  refine ⟨?how, hretries, hq, hone, htwo, rfl, rfl, rfl, hmsgDir, ?trace⟩
  case how =>
    obtain ⟨rfl, -⟩ | ⟨rfl, hph, -, hlong⟩ := hlast.failed htofu (hend.tof_eq.trans htof)
    · exact .inl ⟨hstrobe.symm, hend.tmr_of_failed hpos⟩
    · exact .inr ⟨hstrobe.symm, hph, hlong⟩
  case trace =>
    obtain ⟨events, htrace, -⟩ := hend.emits
    obtain hoff | hoff := hlast.trace_eq
    · exact ⟨events, by simp [State.startMonitor, hoff, htrace]⟩
    · exact ⟨events ++ [.dirDrive], by simp [State.startMonitor, hoff, htrace]⟩

theorem MonitorStep.retry_law {c : MonCmd} (hmove : MonitorStep s c ph t) (h : Inv s)
    (hseq : s.seq = .monitor c ph) :
    (t.seq = .idle → t.status.ok = false → c.retries = true → t.attempts = 2) ∧
    (t.seq = .idle → t.status.ok = true → t.attempts = s.attempts) ∧
    (t.seq = .idle → c.retries = false → t.attempts = 1) ∧
    (t.attempts ≠ s.attempts → SecondAttemptBegins s c ph t) := by
  obtain ⟨-, -, -, -, hattempt, -⟩ := h.monitor_place hseq
  cases hmove with
  | waits =>
    have hrun : (s.strobeTaken.emit (.poll false)).countDown.seq ≠ .idle := by
      rw [s.failedPoll_seq, hseq]
      nofun
    exact ⟨fun hidle => absurd hidle hrun, fun hidle => absurd hidle hrun,
      fun hidle => absurd hidle hrun, fun hne => absurd (by simp) hne⟩
  | goesOn e u ok v next hend hgo =>
    obtain ⟨_, _, _, _, _, _, _, _, rfl⟩ := hend.shape
    obtain ⟨_, _, _, _, _, rfl⟩ := hgo.shape
    exact ⟨nofun, nofun, nofun, fun hne => absurd rfl hne⟩
  | retries e u ok v cause hend hlast htofu hretries hq =>
    exact ⟨nofun, nofun, nofun, fun _ => hlast.secondAttemptBegins hend h hseq htofu hretries hq⟩
  | succeeds e u ok v cause hend hlast =>
    obtain ⟨-, hkept, -⟩ := hlast.attempt_kept hend
    exact ⟨nofun, fun _ _ => hkept, fun _ hretries => hkept.trans (hattempt.of_not_retries hretries),
      fun hne => absurd hkept hne⟩
  | failsQuiet e u ok v cause hend hlast _ hretries =>
    obtain ⟨-, hkept, -⟩ := hlast.attempt_kept hend
    exact ⟨fun _ _ hretries' => (by cases hretries.symm.trans hretries'), nofun,
      fun _ hretries => hkept.trans (hattempt.of_not_retries hretries),
      fun hne => absurd hkept hne⟩
  | fails e u ok v cause hend hlast _ hq =>
    obtain ⟨hloud, hkept, -⟩ := hlast.attempt_kept hend
    rw [← hloud, hq] at hattempt
    exact ⟨fun _ _ hretries => hkept.trans (hattempt.second hretries), nofun,
      fun _ hretries => hkept.trans (hattempt.of_not_retries hretries),
      fun hne => absurd hkept hne⟩

/-- Settles O45: of the moves in a Monitor transaction only the failed end of a quiet attempt of a retrying
command changes the number of attempts. -/
theorem atMostOneRetry : Obligations.AtMostOneRetry := by
  unfold Obligations.AtMostOneRetry
  exact fun s c ph h hseq => (monitorStep hseq).retry_law h hseq

end

/-! ### The timer arrays (41_transactions.md R141, 60_exceptions.md R226) -/

section

variable {s t e u : State} {ok : Bool} {v : Option Byte}

theorem slotsAheadZero_of_idle (h : t.seq = .idle) : SlotsAheadZero t := by
  rw [SlotsAheadZero, h]
  trivial

theorem slotsAheadZero_control {c : CtlCmd} {ph : CtlPhase} (hseq : t.seq = .control c ph) :
    SlotsAheadZero t ↔ ∀ k : Fin 13, ph.slot.val ≤ k.val → t.ctlT[k] = 0 := by
  rw [SlotsAheadZero, hseq]

theorem slotsAheadZero_monitor {c : MonCmd} {ph : MonPhase} (hseq : t.seq = .monitor c ph) :
    SlotsAheadZero t ↔ ∀ k : Fin 14, ph.slot.val ≤ k.val → t.monT[k] = 0 := by
  rw [SlotsAheadZero, hseq]

theorem SlotsAheadZero.of_same (h : SlotsAheadZero s) (hseq : t.seq = s.seq) (hmonT : t.monT = s.monT)
    (hctlT : t.ctlT = s.ctlT) : SlotsAheadZero t := by
  rwa [SlotsAheadZero, hseq, hmonT, hctlT]

/-- The slots past a written one keep what they hold. -/
theorem slots_zero_past_set {n : Nat} {a : Vector Count n} {j : Fin n} {x : Count}
    (h : ∀ k : Fin n, j.val ≤ k.val → a[k] = 0) (k : Fin n) (hk : j.val + 1 ≤ k.val) :
    (a.set j x)[k] = 0 := by
  rw [Fin.getElem_fin, Vector.getElem_set_ne j.isLt k.isLt (by omega)]
  exact h k (by omega)

/-- A slot written with 0 is one of the zero slots. -/
theorem slots_zero_set_zero {n : Nat} {a : Vector Count n} {j : Fin n} {x : Count}
    (h : ∀ k : Fin n, j.val ≤ k.val → a[k] = 0) (hx : x = 0) (k : Fin n) (hk : j.val ≤ k.val) :
    (a.set j x)[k] = 0 := by
  rw [Fin.getElem_fin, Vector.getElem_set]
  split
  · exact hx
  · exact h k hk

theorem ControlStep.slotsAheadZero {c : CtlCmd} {ph : CtlPhase} (hmove : ControlStep s c ph t)
    (h : SlotsAheadZero s) (hseq : s.seq = .control c ph) : SlotsAheadZero t := by
  cases hmove with
  | waits => exact h.of_same (by simp) (by simp) (by simp)
  | aborts | ends => exact slotsAheadZero_of_idle rfl
  | goesOn e ok v next hend hnext =>
    have hzero := (slotsAheadZero_control hseq).mp h
    rw [← hend.slots_eq.2] at hzero
    refine (slotsAheadZero_control rfl).mpr fun k hk => slots_zero_past_set hzero k ?_
    rwa [(CtlPhase.next_slot hnext).1] at hk

theorem MonitorStep.slotsAheadZero {c : MonCmd} {ph : MonPhase} (hmove : MonitorStep s c ph t)
    (h : SlotsAheadZero s) (hseq : s.seq = .monitor c ph) : SlotsAheadZero t := by
  cases hmove with
  | waits => exact h.of_same (by simp) (by simp) (by simp)
  | succeeds | failsQuiet | fails => exact slotsAheadZero_of_idle rfl
  | retries =>
    refine (slotsAheadZero_monitor rfl).mpr fun k _ => ?_
    simp
  | goesOn e u ok v next hend hgo =>
    have hzero := (slotsAheadZero_monitor hseq).mp h
    rw [← hend.slots_eq.1] at hzero
    have hnext := hgo.next_slot
    obtain ⟨_, _, _, _, _, rfl⟩ := hgo.shape
    refine (slotsAheadZero_monitor rfl).mpr fun k hk => slots_zero_past_set hzero k ?_
    rwa [hnext] at hk

theorem BlockStep.slotsAheadZero (hmove : BlockStep s t) (h : SlotsAheadZero s) :
    SlotsAheadZero t := by
  cases hmove with
  | idle => exact h
  | xferWaits => exact h.of_same (by simp) (by simp) (by simp)
  | xferEnds m e ok v =>
    refine slotsAheadZero_of_idle ?_
    unfold State.endXfer
    split <;> rfl
  | control c ph t hseq hmove => exact hmove.slotsAheadZero h hseq
  | monitor c ph t hseq hmove => exact hmove.slotsAheadZero h hseq

theorem CommandStep.slotsAheadZero (hmove : CommandStep s t) (h : SlotsAheadZero s) :
    SlotsAheadZero t := by
  cases hmove with
  | refused => exact h.of_same rfl rfl rfl
  | rejected | setsLine | replies => exact slotsAheadZero_of_idle rfl
  | startsXfer => trivial
  | startsControl =>
    refine (slotsAheadZero_control rfl).mpr fun k _ => ?_
    simp
  | startsMonitor =>
    refine (slotsAheadZero_monitor rfl).mpr fun k _ => ?_
    simp

theorem MoveStep.slotsAheadZero {m : Move} (hmove : MoveStep s m t) (h : SlotsAheadZero s) :
    SlotsAheadZero t := by
  cases hmove with
  | block => exact (blockStep s).slotsAheadZero h
  | refused | reads => exact h.of_same rfl rfl rfl
  | writes off width v r =>
    obtain ⟨_, _, _, _, _, _, hframe⟩ := s.writeReg_frame r v
    rw [hframe]
    exact h.of_same rfl rfl rfl
  | commands off width v t hcommand => exact hcommand.slotsAheadZero h
  | waits => exact ((blockStep s).slotsAheadZero h).of_same rfl rfl rfl
  | waited => exact h
  | reset => exact slotsAheadZero_of_idle rfl

/-- Where the timer array of a failed Monitor transaction shows the failing phase (R226). -/
theorem MonitorStep.failure_located {c : MonCmd} {ph : MonPhase} (hmove : MonitorStep s c ph t)
    (h : Inv s) (hslots : SlotsAheadZero s) (hseq : s.seq = .monitor c ph) (hidle : t.seq = .idle)
    (hfailed : t.status.ok = false) :
    (t.status.ecode = .peerTimeout → ∀ k : Fin 14, ph.slot.val ≤ k.val → t.monT[k] = 0) ∧
      (t.status.ecode = .protocolViolation →
        ph = .rsl ∧ t.monT[5] ≠ 0 ∧ ∀ k : Fin 14, 6 ≤ k.val → t.monT[k] = 0) := by
  obtain ⟨-, -, -, htof, -, -⟩ := h.monitor_place hseq
  cases hmove with
  | waits =>
    rw [s.failedPoll_seq, hseq] at hidle
    cases hidle
  | goesOn | retries => cases hidle
  | succeeds => cases hfailed
  | failsQuiet e u ok v cause hend hlast htofu | fails e u ok v cause hend hlast htofu =>
    have hzero := (slotsAheadZero_monitor hseq).mp hslots
    rw [← hend.slots_eq.1] at hzero
    have hwhy := hlast.failed htofu (hend.tof_eq.trans htof)
    obtain ⟨_, _, _, _, _, _, rfl⟩ := hlast.shape
    refine ⟨fun hcode => ?_, fun hcode => ?_⟩
    · obtain ⟨rfl, -⟩ | ⟨-, -, hcause, -⟩ := hwhy
      · exact slots_zero_set_zero hzero hend.tmr_eq_zero
      · cases hcode.symm.trans hcause
    · obtain ⟨-, hcause⟩ | ⟨rfl, rfl, -, -⟩ := hwhy
      · cases hcode.symm.trans hcause
      · refine ⟨rfl, ?_, slots_zero_past_set hzero⟩
        have hslot : (e.monT.set 5 e.tmr)[5] = e.tmr := Vector.getElem_set_self (by decide)
        exact fun hzero => hend.tmr_ne_zero (hslot.symm.trans hzero)

/-- A Control transaction fails in its first phase, and with it all of its array is 0 (R142, R226). -/
theorem ControlStep.failure_located {c : CtlCmd} {ph : CtlPhase} (hmove : ControlStep s c ph t)
    (hslots : SlotsAheadZero s) (hseq : s.seq = .control c ph) (hidle : t.seq = .idle)
    (hfailed : t.status.ok = false) : t.ctlT = Vector.replicate 13 0 := by
  cases hmove with
  | waits =>
    rw [s.failedPoll_seq, hseq] at hidle
    cases hidle
  | goesOn => cases hidle
  | ends => cases hfailed
  | aborts e v hend hfirst =>
    subst hfirst
    have hzero := (slotsAheadZero_control hseq).mp hslots
    rw [← hend.slots_eq.2] at hzero
    refine Vector.ext fun k hk => ?_
    rw [Vector.getElem_replicate]
    exact slots_zero_set_zero hzero hend.tmr_eq_zero ⟨k, hk⟩ (Nat.zero_le k)

/-- Settles O46: a phase writes its own slot alone, a failed one with 0, and a start clears the array. -/
theorem failingPhaseIsInTheZeroTail : Obligations.FailingPhaseIsInTheZeroTail := by
  unfold Obligations.FailingPhaseIsInTheZeroTail
  refine ⟨fun s t _ hslots hstep => ?ahead, fun s h hslots => ?located⟩
  case ahead =>
    obtain ⟨m, rest, -, hmove⟩ := moveStep_of_step hstep
    exact hmove.slotsAheadZero (hslots.of_same rfl rfl rfl)
  case located =>
    intro t hidle hfailed
    exact ⟨fun c ph hseq => ((monitorStep hseq).failure_located h hslots hseq hidle hfailed).1,
      fun c ph hseq => ((monitorStep hseq).failure_located h hslots hseq hidle hfailed).2,
      fun c ph hseq => (controlStep hseq).failure_located hslots hseq hidle hfailed⟩

/-! ### A Control transaction (41_transactions.md R144, 42_dispatch.md R183) -/

/-- The registers that a Control transaction leaves alone: the message, the direction, the attempts, and the
records of the other kinds. -/
structure ControlKept (s t : State) : Prop where
  msgDir : t.msgDir = s.msgDir
  msgAddr : t.msgAddr = s.msgAddr
  msgLen : t.msgLen = s.msgLen
  msgBuf : t.msgBuf = s.msgBuf
  dir : t.dir = s.dir
  attempts : t.attempts = s.attempts
  monT : t.monT = s.monT
  xferT : t.xferT = s.xferT
  xferData : t.xferData = s.xferData

theorem ControlStep.kept {c : CtlCmd} {ph : CtlPhase} (hmove : ControlStep s c ph t) :
    ControlKept s t := by
  cases hmove with
  | waits =>
    obtain ⟨_, _, htaken⟩ := s.strobeTaken_shape
    rw [htaken]
    exact ⟨rfl, rfl, rfl, rfl, rfl, rfl, rfl, rfl, rfl⟩
  | aborts e v hend | goesOn e ok v next hend | ends e ok v hend =>
    obtain ⟨_, _, _, _, _, _, _, _, rfl⟩ := hend.shape
    exact ⟨rfl, rfl, rfl, rfl, rfl, rfl, rfl, rfl, rfl⟩

theorem ControlStep.progress {c : CtlCmd} {ph : CtlPhase} (hmove : ControlStep s c ph t)
    (hseq : s.seq = .control c ph) :
    t.seq = .idle ∨
      (t.seq = .control c ph ∧ t.trace = s.trace ++ [.poll false] ∧ t.tmr = s.tmr - 1 ∧
        t.ctlT = s.ctlT) ∨
      ∃ ph', t.seq = .control c ph' ∧ ph'.slot.val = ph.slot.val + 1 := by
  cases hmove with
  | waits =>
    exact .inr (.inl ⟨s.failedPoll_seq.trans hseq, by simp, by simp, by simp⟩)
  | aborts | ends => exact .inl rfl
  | goesOn e ok v next hend hnext => exact .inr (.inr ⟨next, rfl, (CtlPhase.next_slot hnext).1⟩)

/-- Settles O47. -/
theorem controlKeepsTheMessage : Obligations.ControlKeepsTheMessage := by
  unfold Obligations.ControlKeepsTheMessage
  intro s c ph hseq
  obtain ⟨hmsgDir, hmsgAddr, hmsgLen, hmsgBuf, hdir, hattempts, hmonT, -, -⟩ :=
    (controlStep hseq).kept
  exact ⟨hmsgDir, hmsgAddr, hmsgLen, hmsgBuf, hdir, hattempts, hmonT,
    (controlStep hseq).progress hseq⟩

/-! ### The records of the three kinds (43_diagnostics.md R205) -/

/-- From `s` to `t` a record changes only in its own kind of transaction, or where one begins. -/
structure RecordsOwned (s t : State) : Prop where
  control : t.ctlT ≠ s.ctlT → (∃ c ph, s.seq = .control c ph) ∨ ∃ c ph, t.seq = .control c ph
  monitor : t.monT ≠ s.monT → (∃ c ph, s.seq = .monitor c ph) ∨ ∃ c ph, t.seq = .monitor c ph
  xfer : t.xferT ≠ s.xferT ∨ t.xferData ≠ s.xferData → ∃ m, s.seq = .xfer m

theorem RecordsOwned.of_kept (hctlT : t.ctlT = s.ctlT) (hmonT : t.monT = s.monT)
    (hxferT : t.xferT = s.xferT) (hxferData : t.xferData = s.xferData) : RecordsOwned s t :=
  ⟨fun h => absurd hctlT h, fun h => absurd hmonT h,
    fun h => h.elim (fun h => absurd hxferT h) fun h => absurd hxferData h⟩

theorem MonitorStep.records_kept {c : MonCmd} {ph : MonPhase} (hmove : MonitorStep s c ph t) :
    t.ctlT = s.ctlT ∧ t.xferT = s.xferT ∧ t.xferData = s.xferData := by
  cases hmove with
  | waits => exact ⟨by simp, by simp, by simp⟩
  | goesOn e u ok v next hend hgo =>
    obtain ⟨_, _, _, _, _, _, _, _, rfl⟩ := hend.shape
    obtain ⟨_, _, _, _, _, rfl⟩ := hgo.shape
    exact ⟨rfl, rfl, rfl⟩
  | succeeds e u ok v cause hend hlast | retries e u ok v cause hend hlast
  | failsQuiet e u ok v cause hend hlast | fails e u ok v cause hend hlast =>
    obtain ⟨_, _, _, _, _, _, _, _, rfl⟩ := hend.shape
    obtain ⟨_, _, _, _, _, _, rfl⟩ := hlast.shape
    exact ⟨rfl, rfl, rfl⟩

theorem State.endXfer_slots (s : State) (ok : Bool) (v : Option Byte) :
    (s.endXfer ok v).ctlT = s.ctlT ∧ (s.endXfer ok v).monT = s.monT := by
  unfold State.endXfer
  split <;> exact ⟨rfl, rfl⟩

theorem BlockStep.recordsOwned (hmove : BlockStep s t) : RecordsOwned s t := by
  cases hmove with
  | idle => exact .of_kept rfl rfl rfl rfl
  | xferWaits => exact .of_kept (by simp) (by simp) (by simp) (by simp)
  | xferEnds m e ok v hseq hend =>
    obtain ⟨hmonT, hctlT⟩ := hend.slots_eq
    obtain ⟨hctlT', hmonT'⟩ := e.endXfer_slots ok v
    exact ⟨fun h => absurd (hctlT'.trans hctlT) h, fun h => absurd (hmonT'.trans hmonT) h,
      fun _ => ⟨m, hseq⟩⟩
  | control c ph t hseq hmove =>
    have hkept := hmove.kept
    exact ⟨fun _ => .inl ⟨c, ph, hseq⟩, fun h => absurd hkept.monT h,
      fun h => h.elim (fun h => absurd hkept.xferT h) fun h => absurd hkept.xferData h⟩
  | monitor c ph t hseq hmove =>
    obtain ⟨hctlT, hxferT, hxferData⟩ := hmove.records_kept
    exact ⟨fun h => absurd hctlT h, fun _ => .inl ⟨c, ph, hseq⟩,
      fun h => h.elim (fun h => absurd hxferT h) fun h => absurd hxferData h⟩

theorem CommandStep.recordsOwned (hmove : CommandStep s t) : RecordsOwned s t := by
  cases hmove with
  | refused | rejected | setsLine | replies | startsXfer => exact .of_kept rfl rfl rfl rfl
  | startsControl c =>
    exact ⟨fun _ => .inr ⟨c, _, rfl⟩, fun h => absurd rfl h,
      fun h => h.elim (fun h => absurd rfl h) fun h => absurd rfl h⟩
  | startsMonitor c =>
    exact ⟨fun h => absurd rfl h, fun _ => .inr ⟨c, _, rfl⟩,
      fun h => h.elim (fun h => absurd rfl h) fun h => absurd rfl h⟩

theorem MoveStep.recordsOwned {m : Move} (hmove : MoveStep s m t) (hm : m ≠ .reset) :
    RecordsOwned s t := by
  cases hmove with
  | block | waits => exact { (blockStep s).recordsOwned with }
  | refused | reads | waited => exact .of_kept rfl rfl rfl rfl
  | writes off width v r =>
    obtain ⟨_, _, _, _, _, _, hframe⟩ := s.writeReg_frame r v
    rw [hframe]
    exact .of_kept rfl rfl rfl rfl
  | commands off width v t hcommand => exact hcommand.recordsOwned
  | reset => exact absurd rfl hm

/-- Settles O48: the block writes the records of the transaction it is in, and a command those of the
transaction it starts. -/
theorem timerArraysAreIndependent : Obligations.TimerArraysAreIndependent := by
  unfold Obligations.TimerArraysAreIndependent
  intro s t hstep hreset
  obtain ⟨m, rest, hagenda, hmove⟩ := moveStep_of_step hstep
  have hm : m ≠ .reset := by
    rintro rfl
    obtain hfirst | hblock := hagenda
    · exact hreset rest hfirst
    · cases hblock
  obtain ⟨hcontrol, hmonitor, hxfer⟩ := hmove.recordsOwned hm
  exact ⟨hcontrol, hmonitor, hxfer⟩

end

end Sys2Proof.Machine

/-! Two runs of the block side by side: an exchange depends on its wire, its direction and its byte alone, so
a move takes the same course whatever `LINK` is, for MON as for MON_Q, and whatever an unwritten hidden
register holds (10_state.md R33, R41, 41_transactions.md R158). -/

namespace Sys2Proof.Machine

/-! ### What an exchange reads and writes (40_transfer_primitive.md R110 to R114) -/

/-- `o` with the registers of `s` that an exchange writes. -/
def State.withWire (o s : State) : State :=
  { o with
    strobes := s.strobes, dins := s.dins, draws := s.draws, trace := s.trace, tmr := s.tmr
    status := s.status, dout := s.dout, ack := s.ack }

/-- The phases in progress in the two states make the same exchange. -/
structure SameExchange (o s : State) : Prop where
  mode : o.seq.mode = s.seq.mode
  byte : o.byteOut = s.byteOut
  build : o.build = s.build

section

variable {o s : State}

theorem State.withWire_strobeTaken (o s : State) :
    (o.withWire s).strobeTaken = o.withWire s.strobeTaken := by
  unfold State.strobeTaken
  cases h : s.strobes <;> simp [State.withWire, h]

theorem State.withWire_dinTaken (o s : State) :
    (o.withWire s).dinTaken = o.withWire s.dinTaken := by
  unfold State.dinTaken
  cases h : s.dins <;> simp [State.withWire, h]

theorem State.withWire_dataLeg (h : SameExchange o s) :
    (o.withWire s).dataLeg = o.withWire s.dataLeg := by
  have hbyte : (o.withWire s).byteOut = s.byteOut := h.byte
  cases hmode : s.seq.mode with
  | write =>
    have hmode' : (o.withWire s).seq.mode = .write := h.mode.trans hmode
    rw [State.dataLeg_write hmode, State.dataLeg_write hmode', hbyte]
    rfl
  | read =>
    have hmode' : (o.withWire s).seq.mode = .read := h.mode.trans hmode
    rw [State.dataLeg_read hmode, State.dataLeg_read hmode', State.senseByte, State.senseByte,
      State.withWire_dinTaken]
    rfl

theorem State.withWire_legPerformed (h : SameExchange o s) :
    (o.withWire s).legPerformed = s.legPerformed := by
  have hbuild : (o.withWire s).build = s.build := h.build
  rw [State.legPerformed, State.legPerformed, hbuild]
  rfl

theorem State.withWire_captured (h : SameExchange o s) : (o.withWire s).captured = s.captured := by
  have hmode : (o.withWire s).seq.mode = s.seq.mode := h.mode
  rw [State.captured, State.captured, hmode, State.withWire_legPerformed h]
  rfl

theorem State.withWire_endExchange (h : SameExchange o s) :
    (o.withWire s).endExchange = o.withWire s.endExchange := by
  have hok : (o.withWire s).phaseOk = s.phaseOk := rfl
  have hmarked : (o.withWire s).markTimeout = o.withWire s.markTimeout := rfl
  have hleg := State.withWire_legPerformed h
  have hmarkedLeg : (o.withWire s.markTimeout).dataLeg = o.withWire s.markTimeout.dataLeg :=
    State.withWire_dataLeg ⟨h.mode, h.byte, h.build⟩
  obtain ⟨hp, hl, hend⟩ | ⟨hp, hl, hend⟩ | ⟨hp, hl, hend⟩ := s.endExchange_cases
  · simp [State.endExchange, hok, hleg, hp, hl, hmarked]
  · simp [State.endExchange, hok, hleg, hp, hl, hmarked, hmarkedLeg]
  · simp [State.endExchange, hok, hleg, hp, hl, State.withWire_dataLeg h]

theorem SameExchange.polled (h : SameExchange o s) (b : Bool) :
    SameExchange o (s.strobeTaken.emit (.poll b)) := by
  obtain ⟨_, _, htaken⟩ := s.strobeTaken_shape
  rw [htaken]
  exact ⟨h.mode, h.byte, h.build⟩

/-- A move of the block makes the same polls and the same exchange in both states; what follows the exchange
may differ. -/
theorem blockMove_withWire (h : SameExchange o s) (hs : s.seq ≠ .idle) (ho : o.seq ≠ .idle) :
    (s.blockMove = (s.strobeTaken.emit (.poll false)).countDown ∧
      (o.withWire s).blockMove = o.withWire (s.strobeTaken.emit (.poll false)).countDown) ∨
    ∃ e ok v, PhaseEnd s e ok v ∧ s.blockMove = e.afterExchange ok v ∧
      (o.withWire s).blockMove = (o.withWire e).afterExchange ok v := by
  have hstrobe : (o.withWire s).strobe = s.strobe := rfl
  have htmr : (o.withWire s).tmr = s.tmr := rfl
  have hpoll (b : Bool) : (o.withWire s).strobeTaken.emit (.poll b) =
      o.withWire (s.strobeTaken.emit (.poll b)) := by
    rw [State.withWire_strobeTaken]
    rfl
  rw [s.blockMove_running hs, (o.withWire s).blockMove_running ho]
  obtain ⟨hfailed, hcount, hmove⟩ | ⟨hseen, hmove⟩ | ⟨hfailed, hcount, hmove⟩ := s.pollMove_cases
  · refine .inl ⟨hmove, ?_⟩
    rw [State.pollMove_waits _ (hstrobe.trans hfailed) hcount, hpoll]
    rfl
  · have hp := h.polled true
    refine .inr ⟨_, _, _, phaseEnd_of_polled true rfl (.inl ⟨hseen, by simp⟩), hmove, ?_⟩
    rw [State.pollMove_seen _ (hstrobe.trans hseen), hpoll, State.endPhase,
      State.withWire_endExchange hp, State.withWire_captured hp]
    rfl
  · have hp : SameExchange o (s.strobeTaken.emit (.poll false)).countDown :=
      ⟨(h.polled false).mode, (h.polled false).byte, (h.polled false).build⟩
    refine .inr ⟨_, _, _,
      phaseEnd_of_polled false rfl (.inr ⟨hfailed, by bv_omega, by simpa using hcount⟩), hmove, ?_⟩
    have hlast : (o.withWire (s.strobeTaken.emit (.poll false))).countDown =
        o.withWire (s.strobeTaken.emit (.poll false)).countDown := rfl
    rw [State.pollMove_timesOut _ (hstrobe.trans hfailed) hcount, hpoll, hlast, State.endPhase,
      State.withWire_endExchange hp, State.withWire_captured hp]
    rfl

end

/-! ### `CMD`, `Q`, the place and `LINK` in a Monitor transaction (41_transactions.md R150) -/

/-- The state with another `CMD`, `Q`, place of the sequencer, and `LINK`. -/
def State.relabelled (s : State) (cmd : Byte) (q : Bool) (place : Seq) (link : LinkState) : State :=
  { s with cmd := cmd, q := q, seq := place, link := link }

section

variable {e u : State} {ph next : MonPhase} {ok : Bool} {v : Option Byte} {cause : ErrCode}

theorem MonitorGoesOn.relabelled (h : MonitorGoesOn e ph ok v u next) (cmd : Byte) (q : Bool)
    (place : Seq) (link : LinkState) :
    MonitorGoesOn (e.relabelled cmd q place link) ph ok v (u.relabelled cmd q place link) next := by
  cases h with
  | addr k k' _ _ hsucc hgo => exact .addr k k' ok v hsucc hgo
  | requestLength => exact .requestLength ok v
  | responseLength => exact .responseLength ok v
  | payloadBegins _ hpos hfits =>
    exact .payloadBegins (e := e.relabelled cmd q place link) v hpos hfits
  | payloadGoesOn i j _ hnext =>
    exact .payloadGoesOn (e := e.relabelled cmd q place link) i j v hnext

theorem MonitorEnds.relabelled (h : MonitorEnds e ph ok v u cause) (cmd : Byte) (q : Bool)
    (place : Seq) (link : LinkState) :
    MonitorEnds (e.relabelled cmd q place link) ph ok v (u.relabelled cmd q place link) cause := by
  cases h with
  | abort => exact .abort v
  | lengthTimeout => exact .lengthTimeout v
  | tooLong _ hlong => exact .tooLong (e := e.relabelled cmd q place link) v hlong
  | noPayload _ hempty => exact .noPayload (e := e.relabelled cmd q place link) v hempty
  | payloadTimeout i => exact .payloadTimeout i v
  | payloadDone i _ hlast => exact .payloadDone (e := e.relabelled cmd q place link) i v hlast

end

/-! ### `LINK` (10_state.md R33) -/

/-- The state with another `LINK`. -/
def State.withLink (s : State) (l : LinkState) : State := { s with link := l }

section

variable (s : State) (l : LinkState)

theorem State.withLink_endXfer (ok : Bool) (v : Option Byte) :
    (s.withLink l).endXfer ok v = (s.endXfer ok v).withLink l := by
  cases ok <;> rfl

theorem State.withLink_afterControlPhase (c : CtlCmd) (ph : CtlPhase) (ok : Bool) :
    (s.withLink l).afterControlPhase c ph ok = (s.afterControlPhase c ph ok).withLink l := by
  have hll : (s.withLink l).ll = s.ll := rfl
  rw [State.afterControlPhase, State.afterControlPhase, hll]
  split
  · rfl
  · split <;> rfl

theorem State.withLink_endMonitor (c : MonCmd) (cause : ErrCode) :
    (s.withLink l).endMonitor c cause = (s.endMonitor c cause).withLink l := by
  have htof : (s.withLink l).tof = s.tof := rfl
  have hq : (s.withLink l).q = s.q := rfl
  have hover : (s.withLink l).overwriteMessage = s.overwriteMessage.withLink l := by
    rw [State.overwriteMessage, State.overwriteMessage, htof, hq]
    split <;> rfl
  have htof' : (s.overwriteMessage.withLink l).tof = s.overwriteMessage.tof := rfl
  have hq' : (s.overwriteMessage.withLink l).q = s.overwriteMessage.q := rfl
  rw [State.endMonitor, State.endMonitor, hover]
  rw [htof', hq']
  split
  · rfl
  · split <;> rfl

theorem State.withLink_afterMonitorPhase (c : MonCmd) (ph : MonPhase) (ok : Bool)
    (v : Option Byte) :
    (s.withLink l).afterMonitorPhase c ph ok v = (s.afterMonitorPhase c ph ok v).withLink l := by
  obtain ⟨u, next, hgo⟩ | ⟨u, cause, hlast⟩ := monitor_goesOn_or_ends s ph ok v
  · have hgo' := hgo.relabelled s.cmd s.q s.seq l
    rw [hgo.afterMonitorPhase_eq]
    refine (hgo'.afterMonitorPhase_eq c).trans ?_
    obtain ⟨_, _, _, _, _, rfl⟩ := hgo.shape
    rfl
  · have hlast' := hlast.relabelled s.cmd s.q s.seq l
    rw [hlast.afterMonitorPhase_eq, ← State.withLink_endMonitor]
    refine (hlast'.afterMonitorPhase_eq c).trans ?_
    obtain ⟨_, _, _, _, _, _, rfl⟩ := hlast.shape
    rfl

theorem State.withLink_afterExchange (ok : Bool) (v : Option Byte) :
    (s.withLink l).afterExchange ok v = (s.afterExchange ok v).withLink l := by
  have hseq : (s.withLink l).seq = s.seq := rfl
  rw [State.afterExchange, State.afterExchange, hseq]
  split
  · rfl
  · exact s.withLink_endXfer l ok v
  · exact s.withLink_afterControlPhase l _ _ ok
  · exact s.withLink_afterMonitorPhase l _ _ ok v

theorem State.withLink_blockMove : (s.withLink l).blockMove = s.blockMove.withLink l := by
  by_cases hidle : s.seq = .idle
  · rw [s.blockMove_idle hidle, (s.withLink l).blockMove_idle hidle]
  · have hsame : SameExchange (s.withLink l) s := ⟨rfl, rfl, rfl⟩
    obtain ⟨hmove, hmove'⟩ | ⟨e, ok, v, hend, hmove, hmove'⟩ := blockMove_withWire hsame hidle hidle
    · rw [hmove]
      refine Eq.trans hmove' ?_
      obtain ⟨_, _, htaken⟩ := s.strobeTaken_shape
      rw [htaken]
      rfl
    · rw [hmove, ← State.withLink_afterExchange]
      refine Eq.trans hmove' ?_
      obtain ⟨_, _, _, _, _, _, _, _, rfl⟩ := hend.shape
      rfl

end

/-- Settles O49: no move of the block writes these registers, and none reads `LINK`. -/
theorem blockLeavesClientRegisters : Obligations.BlockLeavesClientRegisters := by
  unfold Obligations.BlockLeavesClientRegisters
  intro s
  have hkept := (blockStep s).clientKept
  exact ⟨hkept.msgAddr, hkept.cmd, hkept.cmdArg, hkept.refused, s.withLink_blockMove⟩

end Sys2Proof.Machine

/-! MON beside MON_Q, and a run beside the same run with other hidden registers (41_transactions.md R158,
10_state.md R41). -/

namespace Sys2Proof.Machine

/-! ### MON beside MON_Q (41_transactions.md R156, R158) -/

/-- `s` is in MON where `u` is in MON_Q. -/
def RunsAsMon (u s : State) : Prop :=
  ∃ ph, u.seq = .monitor .monQ ph ∧ u.q = true ∧
    s = u.relabelled (encode .mon) false (.monitor .mon ph) u.link

/-- The end of MON where MON_Q has come to the end `u`: the message is overwritten after a failure (R156). -/
def State.endedAsMon (u : State) : State :=
  { u with
    cmd := encode .mon
    q := false
    msgDir := if u.status.ok then u.msgDir else .control
    msgLen := if u.status.ok then u.msgLen else 0 }

/-- MON and MON_Q side by side: both in the same phase, or both at their end. -/
def MonBeside (u s : State) : Prop := RunsAsMon u s ∨ u.seq = .idle ∧ s = u.endedAsMon

theorem endMonitor_beside {w : State} (cause : ErrCode) (hq : w.q = true) (place : Seq) :
    MonBeside (w.endMonitor .monQ cause)
      ((w.relabelled (encode .mon) false place w.link).endMonitor .mon cause) := by
  obtain ⟨htof, hend⟩ | ⟨-, hretries, -⟩ | ⟨htof, -, -, hend⟩ | ⟨-, hq', -⟩ :=
    w.endMonitor_cases .monQ cause
  · have hmon : (w.relabelled (encode .mon) false place w.link).tof = false := htof
    rw [hend, State.endMonitor_success .mon cause hmon]
    exact .inr ⟨rfl, rfl⟩
  · cases hretries
  · have hmon : (w.relabelled (encode .mon) false place w.link).tof = true := htof
    rw [hend, State.endMonitor_fails cause hmon rfl]
    exact .inr ⟨rfl, rfl⟩
  · cases hq.symm.trans hq'

theorem RunsAsMon.blockMove {u s : State} (h : RunsAsMon u s) :
    MonBeside u.blockMove s.blockMove := by
  obtain ⟨ph, hseq, hq, rfl⟩ := h
  have hsame : SameExchange (u.relabelled (encode .mon) false (.monitor .mon ph) u.link) u := by
    refine ⟨?_, ?_, rfl⟩
    · rw [hseq]
      cases ph <;> rfl
    · rw [State.byteOut, State.byteOut, hseq]
      cases ph <;> rfl
  obtain ⟨hmove, hmove'⟩ | ⟨e, ok, v, hend, hmove, hmove'⟩ :=
    blockMove_withWire hsame (by simp [hseq]) nofun
  · rw [hmove]
    refine .inl ⟨ph, by rw [u.failedPoll_seq, hseq], by simpa using hq, Eq.trans hmove' ?_⟩
    obtain ⟨_, _, htaken⟩ := u.strobeTaken_shape
    rw [htaken]
    rfl
  · have heseq := hend.seq_eq.trans hseq
    have hq' : e.q = true := by
      obtain ⟨_, _, _, _, _, _, _, _, rfl⟩ := hend.shape
      exact hq
    have hmon : (u.relabelled (encode .mon) false (.monitor .mon ph) u.link).blockMove =
        (e.relabelled (encode .mon) false (.monitor .mon ph) e.link).afterMonitorPhase .mon ph ok
          v := by
      refine Eq.trans hmove' ?_
      obtain ⟨_, _, _, _, _, _, _, _, rfl⟩ := hend.shape
      rfl
    rw [hmon, hmove, e.afterExchange_monitor heseq]
    obtain ⟨w, next, hgo⟩ | ⟨w, cause, hlast⟩ := monitor_goesOn_or_ends e ph ok v
    · rw [hgo.afterMonitorPhase_eq, (hgo.relabelled _ _ _ _).afterMonitorPhase_eq]
      obtain ⟨_, _, _, _, _, rfl⟩ := hgo.shape
      exact .inl ⟨next, rfl, hq', rfl⟩
    · have hlink : w.link = e.link := hlast.clientKept.link
      have hqw : w.q = true := by
        obtain ⟨_, _, _, _, _, _, rfl⟩ := hlast.shape
        exact hq'
      rw [hlast.afterMonitorPhase_eq, (hlast.relabelled _ _ _ _).afterMonitorPhase_eq, ← hlink]
      exact endMonitor_beside cause hqw _

theorem MonBeside.blockMove {u s : State} (h : MonBeside u s) :
    MonBeside u.blockMove s.blockMove := by
  obtain hrun | ⟨hidle, rfl⟩ := h
  · exact hrun.blockMove
  · rw [u.blockMove_idle hidle, u.endedAsMon.blockMove_idle hidle]
    exact .inr ⟨hidle, rfl⟩

theorem MonBeside.blockMoves {u s : State} (h : MonBeside u s) (n : Nat) :
    MonBeside (blockMoves n u) (blockMoves n s) := by
  induction n generalizing u s with
  | zero => exact h
  | succ n ih => exact ih h.blockMove

/-- Settles O39: from their accepts on the two commands go through the same phases, to ends that differ by
the overwrite. -/
theorem quietDiffersByTheOverwrite : Obligations.QuietDiffersByTheOverwrite := by
  unfold Obligations.QuietDiffersByTheOverwrite
  intro s hready
  obtain ⟨-, hmonitor⟩ := monitorRunsItsPseudocode
  obtain ⟨-, hruns⟩ := hmonitor s hready.1
  obtain ⟨-, u0, k, hquiet, -, hbound, hmoves, hidle⟩ := hruns hready
  rw [← hmoves] at hidle
  have hstart := exec_monQ_starts hready
  cases hquiet.symm.trans hstart
  have hbeside : MonBeside ((s.accepted .monQ).latch.startMonitor .monQ true)
      ((s.accepted .mon).latch.startMonitor .mon false) := .inl ⟨.addr 0, rfl, rfl, rfl⟩
  obtain ⟨ph, hrun, -⟩ | ⟨-, hended⟩ := hbeside.blockMoves k
  · cases hidle.symm.trans hrun
  · refine ⟨_, _, k, exec_mon_starts hready, hquiet, hbound, ?_, hended⟩
    rw [hended]
    exact hidle

/-! ### The hidden registers (10_state.md R41) -/

/-- The registers that no client and no peer can see. -/
structure Hidden where
  tmr : Count
  la : Rca
  ll : Byte
  q : Bool
  tof : Bool

def State.hidden (s : State) : Hidden := ⟨s.tmr, s.la, s.ll, s.q, s.tof⟩

def State.withHidden (s : State) (h : Hidden) : State :=
  { s with tmr := h.tmr, la := h.la, ll := h.ll, q := h.q, tof := h.tof }

/-- The hidden registers that a command in the given place has written are the same. -/
def SameWritten (place : Seq) (old new : Hidden) : Prop :=
  match place with
  | .idle => True
  | .xfer _ => new.tmr = old.tmr
  | .control _ _ => new.tmr = old.tmr ∧ new.la = old.la ∧ new.ll = old.ll
  | .monitor _ _ => new = old

theorem SameVisible.refl (s : State) : SameVisible s s := by
  refine ⟨rfl, ?_⟩
  cases hseq : s.seq with
  | idle => trivial
  | xfer => rfl
  | control => exact ⟨rfl, rfl, rfl⟩
  | monitor => rfl

theorem sameVisible_withHidden {s : State} {h : Hidden} (hsame : SameWritten s.seq s.hidden h) :
    SameVisible s (s.withHidden h) := by
  refine ⟨rfl, ?_⟩
  cases hseq : s.seq with
  | idle => trivial
  | xfer | control =>
    rw [hseq] at hsame
    exact hsame
  | monitor =>
    rw [hseq] at hsame
    have heq : h = s.hidden := hsame
    rw [heq]
    rfl

theorem SameVisible.exists_hidden {s t : State} (h : SameVisible s t) :
    ∃ g, t = s.withHidden g ∧ SameWritten s.seq s.hidden g := by
  obtain ⟨hvisible, hwritten⟩ := h
  refine ⟨t.hidden, hvisible, ?_⟩
  cases hseq : s.seq with
  | idle => trivial
  | xfer | control =>
    rw [hseq] at hwritten
    exact hwritten
  | monitor =>
    rw [hseq] at hwritten
    have heq : t = s := hwritten
    rw [heq]
    rfl

/-- An update that does not touch the hidden registers and the place keeps two such states together. -/
theorem sameVisible_update {s s' : State} {g : Hidden} (hsame : SameWritten s.seq s.hidden g)
    (hseq : s'.seq = s.seq) (hhidden : s'.hidden = s.hidden) : SameVisible s' (s'.withHidden g) :=
  sameVisible_withHidden (by rwa [hseq, hhidden])

theorem sameVisible_of_idle {s : State} (h : s.seq = .idle) (g : Hidden) :
    SameVisible s (s.withHidden g) :=
  sameVisible_withHidden (by rw [h]; trivial)

/-! ### The block's move (10_state.md R41) -/

/-- The state with other hidden registers, but for the countdown. -/
def State.withLatch (s : State) (g : Hidden) : State :=
  { s with la := g.la, ll := g.ll, q := g.q, tof := g.tof }

theorem State.withHidden_eq_withLatch {s : State} {g : Hidden} (h : g.tmr = s.tmr) :
    s.withHidden g = s.withLatch g := by
  rw [State.withHidden, h]
  rfl

section

variable {s : State} {g : Hidden}

theorem sameVisible_withLatch_xfer {m : Mode} (h : s.seq = .idle ∨ s.seq = .xfer m) :
    SameVisible s (s.withLatch g) := by
  change SameVisible s (s.withHidden { g with tmr := s.tmr })
  obtain h | h := h <;> refine sameVisible_withHidden ?_ <;> rw [h]
  · trivial
  · rfl

theorem sameVisible_withLatch_control {c : CtlCmd} (hla : g.la = s.la) (hll : g.ll = s.ll)
    (h : s.seq = .idle ∨ ∃ ph, s.seq = .control c ph) : SameVisible s (s.withLatch g) := by
  change SameVisible s (s.withHidden { g with tmr := s.tmr })
  obtain h | ⟨ph, h⟩ := h <;> refine sameVisible_withHidden ?_ <;> rw [h]
  · trivial
  · exact ⟨rfl, hla, hll⟩

theorem State.endXfer_seq (s : State) (ok : Bool) (v : Option Byte) :
    (s.endXfer ok v).seq = .idle := by
  cases ok <;> rfl

/-- An XFER reads none of the latch, `Q` and `TOF`. -/
theorem sameVisible_blockMove_xfer {m : Mode} (hseq : s.seq = .xfer m) :
    SameVisible s.blockMove (s.withLatch g).blockMove := by
  have hrun : s.seq ≠ .idle := by simp [hseq]
  have hsame : SameExchange (s.withLatch g) s := by
    have hseq' : (s.withLatch g).seq = .xfer m := hseq
    refine ⟨rfl, ?_, rfl⟩
    rw [State.byteOut, State.byteOut, hseq, hseq']
    rfl
  obtain ⟨hmove, hmove'⟩ | ⟨e, ok, v, hend, hmove, hmove'⟩ := blockMove_withWire hsame hrun hrun
  · have hlatch : (s.withLatch g).blockMove =
        (s.strobeTaken.emit (.poll false)).countDown.withLatch g := by
      refine Eq.trans hmove' ?_
      obtain ⟨_, _, htaken⟩ := s.strobeTaken_shape
      rw [htaken]
      rfl
    rw [hmove, hlatch]
    exact sameVisible_withLatch_xfer (.inr (s.failedPoll_seq.trans hseq))
  · have hafter : s.blockMove = e.endXfer ok v := by
      rw [hmove, State.afterExchange, hend.seq_eq, hseq]
    have hlatch : (s.withLatch g).blockMove = (e.endXfer ok v).withLatch g := by
      obtain ⟨_, _, _, _, _, _, _, _, rfl⟩ := hend.shape
      refine Eq.trans hmove' ?_
      rw [State.afterExchange]
      dsimp only [State.withWire, State.withLatch]
      rw [hseq]
      cases ok <;> rfl
    rw [hafter, hlatch]
    exact sameVisible_withLatch_xfer (m := m) (.inl (e.endXfer_seq ok v))

theorem State.withLatch_afterControlPhase (s : State) (c : CtlCmd) (ph : CtlPhase) (ok : Bool)
    (hll : g.ll = s.ll) :
    (s.withLatch g).afterControlPhase c ph ok = (s.afterControlPhase c ph ok).withLatch g := by
  have hll' : (s.withLatch g).ll = s.ll := hll
  rw [State.afterControlPhase, State.afterControlPhase, hll']
  split
  · rfl
  · split <;> rfl

theorem ControlStep.seq_eq {t : State} {c : CtlCmd} {ph : CtlPhase} (hmove : ControlStep s c ph t)
    (hseq : s.seq = .control c ph) : t.seq = .idle ∨ ∃ ph', t.seq = .control c ph' := by
  obtain hidle | ⟨hsame, -⟩ | ⟨ph', hnext, -⟩ := hmove.progress hseq
  · exact .inl hidle
  · exact .inr ⟨ph, hsame⟩
  · exact .inr ⟨ph', hnext⟩

/-- A Control transaction reads neither `Q` nor `TOF`. -/
theorem sameVisible_blockMove_control {c : CtlCmd} {ph : CtlPhase} (hseq : s.seq = .control c ph)
    (hla : g.la = s.la) (hll : g.ll = s.ll) :
    SameVisible s.blockMove (s.withLatch g).blockMove := by
  have hrun : s.seq ≠ .idle := by simp [hseq]
  have hsame : SameExchange (s.withLatch g) s := by
    have hla' : (s.withLatch g).la = s.la := hla
    have hll' : (s.withLatch g).ll = s.ll := hll
    have hseq' : (s.withLatch g).seq = .control c ph := hseq
    refine ⟨rfl, ?_, rfl⟩
    rw [State.byteOut, State.byteOut, hseq, hseq', hla', hll']
    cases ph <;> rfl
  have hlatch : (s.withLatch g).blockMove = s.blockMove.withLatch g := by
    obtain ⟨hmove, hmove'⟩ | ⟨e, ok, v, hend, hmove, hmove'⟩ := blockMove_withWire hsame hrun hrun
    · rw [hmove]
      refine Eq.trans hmove' ?_
      obtain ⟨_, _, htaken⟩ := s.strobeTaken_shape
      rw [htaken]
      rfl
    · have heseq := hend.seq_eq.trans hseq
      have hwire : (s.withLatch g).withWire e = e.withLatch g := by
        obtain ⟨_, _, _, _, _, _, _, _, rfl⟩ := hend.shape
        rfl
      have hafter := (e.withLatch g).afterExchange_control heseq ok v
      rw [hmove, e.afterExchange_control heseq,
        ← State.withLatch_afterControlPhase _ _ _ _ (hll.trans hend.ll_eq.symm), ← hafter, ← hwire]
      exact hmove'
  have hkept := (blockStep s).clientKept
  rw [hlatch]
  exact sameVisible_withLatch_control (hla.trans hkept.la.symm) (hll.trans hkept.ll.symm)
    ((controlStep hseq).seq_eq hseq)

end

section

variable {s t s' : State}

theorem SameVisible.blockMove (h : SameVisible s t) : SameVisible s.blockMove t.blockMove := by
  obtain ⟨g, rfl, hsame⟩ := h.exists_hidden
  cases hseq : s.seq with
  | idle =>
    rw [s.blockMove_idle hseq, (s.withHidden g).blockMove_idle hseq]
    exact sameVisible_of_idle hseq g
  | xfer m =>
    rw [hseq] at hsame
    rw [State.withHidden_eq_withLatch hsame]
    exact sameVisible_blockMove_xfer hseq
  | control c ph =>
    rw [hseq] at hsame
    obtain ⟨htmr, hla, hll⟩ := hsame
    rw [State.withHidden_eq_withLatch htmr]
    exact sameVisible_blockMove_control hseq hla hll
  | monitor c ph =>
    rw [hseq] at hsame
    rw [show g = s.hidden from hsame]
    exact .refl s.blockMove

/-! ### A command (10_state.md R41) -/

/-- The commands read no hidden register, and their rules end in an idle block or write what they need. -/
theorem accept_withHidden {i : Instr} {check : Option ErrCode} {rule : State → State} {g : Hidden}
    (h : s.accept i check rule = .next s') (hsame : SameWritten s.seq s.hidden g)
    (hrule : SameVisible (rule (s.accepted i)) (rule ((s.accepted i).withHidden g))) :
    ∃ t', (s.withHidden g).accept i check rule = .next t' ∧ SameVisible s' t' := by
  obtain ⟨hbusy, rfl⟩ | ⟨hidle, code, rfl, rfl⟩ | ⟨hidle, rfl, rfl⟩ := State.accept_cases h
  · exact ⟨_, State.accept_busy _ _ _ _ hbusy, sameVisible_update hsame rfl rfl⟩
  · exact ⟨_, State.accept_rejected _ _ _ _ hidle, sameVisible_of_idle rfl g⟩
  · exact ⟨_, State.accept_runs _ _ _ hidle, hrule⟩

theorem State.withHidden_strobeTaken (s : State) (g : Hidden) :
    (s.withHidden g).strobeTaken = s.strobeTaken.withHidden g := by
  unfold State.strobeTaken
  cases h : s.strobes <;> simp [State.withHidden, h]

theorem State.withHidden_snapshotReply (s : State) (g : Hidden) :
    (s.withHidden g).snapshotReply = s.snapshotReply.withHidden g := by
  have hbytes : (s.withHidden g).snapshotBytes (s.withHidden g).strobe = s.snapshotBytes s.strobe :=
    rfl
  rw [State.snapshotReply, State.snapshotReply, hbytes, State.withHidden_strobeTaken]
  rfl

theorem exec_withHidden {i : Instr} {g : Hidden} (h : exec i s = .next s')
    (hsame : SameWritten s.seq s.hidden g) :
    ∃ t', exec i (s.withHidden g) = .next t' ∧ SameVisible s' t' := by
  cases i with
  | xfer m =>
    rw [exec_xfer] at h ⊢
    exact accept_withHidden h hsame ⟨rfl, rfl⟩
  | setdir d =>
    rw [exec_setdir] at h ⊢
    refine accept_withHidden h hsame ?_
    cases d <;> exact sameVisible_of_idle rfl g
  | setattn level =>
    rw [exec_setattn] at h ⊢
    refine accept_withHidden h hsame ?_
    cases level <;> exact sameVisible_of_idle rfl g
  | diagRd sel =>
    rw [exec_diagRd] at h ⊢
    refine accept_withHidden h hsame ?_
    split
    · rw [State.withHidden_snapshotReply]
      exact sameVisible_of_idle rfl g
    · exact sameVisible_of_idle rfl g
  | ctrl =>
    rw [exec_ctrl] at h ⊢
    exact accept_withHidden h hsame ⟨rfl, rfl, rfl, rfl⟩
  | mon =>
    rw [exec_mon] at h ⊢
    exact accept_withHidden h hsame (.refl _)
  | monQ =>
    rw [exec_monQ] at h ⊢
    exact accept_withHidden h hsame (.refl _)
  | monRetry =>
    rw [exec_monRetry] at h ⊢
    exact accept_withHidden h hsame (.refl _)
  | fwd e =>
    cases hdir : s.msgDir with
    | monitor =>
      rw [exec_fwd_monitor e _ hdir] at h
      rw [exec_fwd_monitor e _ (show (s.withHidden g).msgDir = .monitor from hdir)]
      exact accept_withHidden h hsame (.refl _)
    | control =>
      rw [exec_fwd_control e _ hdir] at h
      rw [exec_fwd_control e _ (show (s.withHidden g).msgDir = .control from hdir)]
      exact accept_withHidden h hsame ⟨rfl, rfl, rfl, rfl⟩

theorem commandWrite_withHidden {c : Byte} {g : Hidden} (h : s.commandWrite c = .next s')
    (hsame : SameWritten s.seq s.hidden g) :
    ∃ t', (s.withHidden g).commandWrite c = .next t' ∧ SameVisible s' t' := by
  obtain ⟨i, hdecode, hexec⟩ | ⟨e, hdecode, rfl⟩ := State.commandWrite_cases h
  · rw [State.commandWrite_decoded _ hdecode]
    exact exec_withHidden hexec hsame
  · refine ⟨_, by rw [State.commandWrite, hdecode], ?_⟩
    cases hbusy : s.status.busy with
    | true =>
      rw [State.acceptIllegal_busy c e hbusy, State.acceptIllegal_busy (s := s.withHidden g) c e hbusy]
      exact sameVisible_update hsame rfl rfl
    | false =>
      rw [State.acceptIllegal_idle e hbusy, State.acceptIllegal_idle (s := s.withHidden g) e hbusy]
      exact sameVisible_of_idle rfl g

/-! ### The client's moves and the reset (10_state.md R41) -/

theorem State.withHidden_writeReg (s : State) (g : Hidden) (r : WinReg) (v : Byte) :
    (s.withHidden g).writeReg r v = (s.writeReg r v).withHidden g := by
  cases r <;> rfl

theorem clientWrite_withHidden {off width : Nat} {v : Byte} {g : Hidden}
    (h : s.clientWrite off width v = .next s') (hsame : SameWritten s.seq s.hidden g) :
    ∃ t', (s.withHidden g).clientWrite off width v = .next t' ∧ SameVisible s' t' := by
  have hbusy : (s.withHidden g).status.busy = s.status.busy := rfl
  unfold State.clientWrite at h ⊢
  rw [hbusy]
  split at h
  next hc =>
    cases h
    rw [if_pos hc]
    exact ⟨_, rfl, sameVisible_update hsame rfl rfl⟩
  next hc =>
    rw [if_neg hc]
    split at h
    next hcmd =>
      rw [if_pos hcmd]
      exact commandWrite_withHidden h hsame
    next hcmd =>
      rw [if_neg hcmd]
      split at h
      next href =>
        cases h
        rw [if_pos href]
        exact ⟨_, rfl, sameVisible_update hsame rfl rfl⟩
      next href =>
        cases h
        rw [if_neg href, State.withHidden_writeReg]
        refine ⟨_, rfl, ?_⟩
        obtain ⟨_, _, _, _, _, _, hframe⟩ := s.writeReg_frame (WinReg.ofOffset off) v
        rw [hframe]
        exact sameVisible_update hsame rfl rfl

theorem clientRead_withHidden {g : Hidden} (off width : Nat) (hsame : SameWritten s.seq s.hidden g) :
    SameVisible (s.clientRead off width) ((s.withHidden g).clientRead off width) := by
  have hread : (s.withHidden g).clientRead off width =
      (s.clientRead off width).withHidden g := by
    have hbusy : (s.withHidden g).status.busy = s.status.busy := rfl
    unfold State.clientRead
    rw [hbusy, State.withHidden_strobeTaken]
    split
    · rfl
    · split
      · rfl
      · split <;> rfl
  rw [hread]
  have hkept : (s.clientRead off width).seq = s.seq ∧ (s.clientRead off width).hidden = s.hidden := by
    obtain ⟨l, n, htaken⟩ := s.strobeTaken_shape
    obtain ⟨-, h⟩ | ⟨-, h⟩ | ⟨-, h⟩ | ⟨-, h⟩ := s.clientRead_cases off width <;> rw [h]
    · exact ⟨rfl, rfl⟩
    · exact ⟨rfl, rfl⟩
    · rw [htaken]
      exact ⟨rfl, rfl⟩
    · exact ⟨rfl, rfl⟩
  exact sameVisible_update hsame hkept.1 hkept.2

theorem SameVisible.withAgenda (h : SameVisible s t) (rest : List Move) :
    SameVisible (s.withAgenda rest) (t.withAgenda rest) := by
  obtain ⟨g, rfl, hsame⟩ := h.exists_hidden
  exact sameVisible_update (s' := s.withAgenda rest) hsame rfl rfl

theorem SameVisible.agenda_eq (h : SameVisible s t) : t.agenda = s.agenda := by
  rw [h.1]

theorem SameVisible.move {m : Move} (hmove : s.move m = .next s') (h : SameVisible s t) :
    ∃ t', t.move m = .next t' ∧ SameVisible s' t' := by
  have hagenda := h.agenda_eq
  have hblock := h.blockMove
  obtain ⟨g, rfl, hsame⟩ := h.exists_hidden
  cases m with
  | block =>
    cases hmove
    exact ⟨_, rfl, hblock⟩
  | read off width =>
    cases hmove
    exact ⟨_, rfl, clientRead_withHidden off width hsame⟩
  | write off width v => exact clientWrite_withHidden hmove hsame
  | await =>
    cases hmove
    refine ⟨_, rfl, ?_⟩
    have hdone : (s.withHidden g).status.done = s.status.done := rfl
    rw [State.awaitDone, State.awaitDone, hdone, hagenda]
    split
    · exact sameVisible_withHidden hsame
    · exact hblock.withAgenda _
  | reset =>
    cases hmove
    exact ⟨_, rfl, .refl _⟩

/-- Settles O52: what a command reads of the hidden registers it has written itself. -/
theorem hiddenRegistersAreUnobservable : Obligations.HiddenRegistersAreUnobservable := by
  unfold Obligations.HiddenRegistersAreUnobservable
  intro s t s' h hstep
  have hagenda := h.agenda_eq
  cases hs : s.agenda with
  | nil =>
    rw [step_agenda_nil hs] at hstep
    cases hstep
    exact ⟨_, step_agenda_nil (hagenda.trans hs), h.blockMove⟩
  | cons m rest =>
    rw [step_agenda_cons hs] at hstep
    rw [step_agenda_cons (hagenda.trans hs)]
    exact (h.withAgenda rest).move hstep

end

end Sys2Proof.Machine

/-! The polls of a phase that fails them, and the end of its exchange (40_transfer_primitive.md R110 to
R114). -/

namespace Sys2Proof.Machine

/-! ### Failed polls (40_transfer_primitive.md R110, R111) -/

/-- The state of a phase whose first `n` polls have failed. -/
def State.pollsFailed (s : State) (n : Nat) (rest : List Bool) : State :=
  { s with
    tmr := s.tmr - BitVec.ofNat 16 n
    strobes := rest
    trace := s.trace ++ failedPolls n }

section

variable {s : State} {n : Nat} {rest : List Bool}

theorem blockMoves_failedPolls (hrun : s.seq ≠ .idle)
    (hstrobes : s.strobes = List.replicate n false ++ rest) (htmr : n < s.tmr.toNat) :
    blockMoves n s = s.pollsFailed n rest := by
  induction n generalizing s with
  | zero =>
    have hrest : s.strobes = rest := hstrobes
    simp [blockMoves, State.pollsFailed, failedPolls, ← hrest]
  | succ n ih =>
    have first := State.blockMove_failedPoll hrun hstrobes (by omega)
    have left : n < s.blockMove.tmr.toNat := by rw [first]; bv_omega
    have later := ih (s := s.blockMove) (by rwa [first]) (by rw [first]; rfl) left
    have merged : s.blockMove.pollsFailed n rest = s.pollsFailed (n + 1) rest := by
      have htmr' : s.tmr - 1#16 - BitVec.ofNat 16 n = s.tmr - BitVec.ofNat 16 (n + 1) := by
        bv_omega
      rw [first]
      simp [State.pollsFailed, failedPolls, List.replicate_succ, htmr']
    exact later.trans merged

/-- The poll that uses up the countdown ends the phase. -/
theorem blockMoves_timesOut (hrun : s.seq ≠ .idle)
    (hstrobes : s.strobes = List.replicate s.tmr.toNat false ++ rest) (hpos : 1 ≤ s.tmr.toNat) :
    blockMoves s.tmr.toNat s = (s.pollsFailed s.tmr.toNat rest).endPhase := by
  obtain ⟨n, hn⟩ := Nat.exists_eq_add_of_le' hpos
  rw [hn] at hstrobes ⊢
  have before : blockMoves n s = s.pollsFailed n (false :: rest) :=
    blockMoves_failedPolls hrun (by rw [hstrobes, List.replicate_succ']; simp) (by omega)
  obtain ⟨hstrobe, htaken⟩ :=
    State.strobe_cons (s := s.pollsFailed n (false :: rest)) (b := false) (bs := rest) rfl
  have hcount : s.tmr - BitVec.ofNat 16 n - 1#16 = s.tmr - BitVec.ofNat 16 (n + 1) := by bv_omega
  have hzero : s.tmr - BitVec.ofNat 16 n - 1 = 0 := by bv_omega
  have last : ((s.pollsFailed n (false :: rest)).strobeTaken.emit (.poll false)).countDown =
      s.pollsFailed (n + 1) rest := by
    rw [htaken]
    simp [State.pollsFailed, State.emit, State.countDown, failedPolls, List.replicate_succ', hcount]
  rw [blockMoves_add, before, ← last, ← State.pollMove_timesOut _ hstrobe hzero]
  exact State.blockMove_running (s.pollsFailed n (false :: rest)) hrun

end

/-! ### The timeout flag (R114) -/

theorem State.afterControlPhase_timeout (s : State) (c : CtlCmd) (ph : CtlPhase) (ok : Bool) :
    (s.afterControlPhase c ph ok).status.timeout = s.status.timeout := by
  obtain ⟨-, -, h⟩ | ⟨next, -, h⟩ | ⟨-, h⟩ := s.afterControlPhase_cases c ph ok <;> rw [h] <;> rfl

theorem State.endMonitor_timeout (s : State) (c : MonCmd) (cause : ErrCode) :
    (s.endMonitor c cause).status.timeout = s.status.timeout := by
  obtain ⟨-, h⟩ | ⟨-, -, -, h⟩ | ⟨-, -, -, h⟩ | ⟨-, -, h⟩ := s.endMonitor_cases c cause <;>
    rw [h] <;> rfl

theorem State.afterMonitorPhase_timeout (s : State) (c : MonCmd) (ph : MonPhase) (ok : Bool)
    (v : Option Byte) : (s.afterMonitorPhase c ph ok v).status.timeout = s.status.timeout := by
  obtain ⟨u, next, hgo⟩ | ⟨u, cause, hlast⟩ := monitor_goesOn_or_ends s ph ok v
  · rw [hgo.afterMonitorPhase_eq]
    obtain ⟨_, _, _, _, _, rfl⟩ := hgo.shape
    rfl
  · rw [hlast.afterMonitorPhase_eq, State.endMonitor_timeout]
    obtain ⟨_, _, _, _, _, _, rfl⟩ := hlast.shape
    rfl

/-- What follows a phase leaves `TO` as the exchange has left it. -/
theorem State.afterExchange_timeout (s : State) (ok : Bool) (v : Option Byte) :
    (s.afterExchange ok v).status.timeout = s.status.timeout := by
  cases hseq : s.seq with
  | idle => rw [State.afterExchange, hseq]
  | xfer m =>
    rw [State.afterExchange, hseq]
    cases ok <;> rfl
  | control c ph => rw [s.afterExchange_control hseq, State.afterControlPhase_timeout]
  | monitor c ph => rw [s.afterExchange_monitor hseq, State.afterMonitorPhase_timeout]

theorem State.endPhase_timeout {p : State} (hfailed : p.phaseOk = false) :
    p.endPhase.status.timeout = true := by
  rw [State.endPhase, State.afterExchange_timeout, p.endExchange_status, hfailed]
  rfl

theorem State.phaseOk_of_tmr_zero {p : State} (h : p.tmr = 0) : p.phaseOk = false :=
  decide_eq_false (not_not_intro h)

theorem remainder_toNat {s : State} {n : Nat} (h : n ≤ s.ceil.toNat) :
    (remainder s.build n).toNat = s.ceil.toNat - n := by
  have hremainder : remainder s.build n = s.ceil - BitVec.ofNat 16 n := rfl
  rw [hremainder]
  bv_omega

/-- Settles O29: each failed poll takes one from the countdown that the phase's start loaded. -/
theorem countdownLaws : Obligations.CountdownLaws := by
  unfold Obligations.CountdownLaws
  intro s hrun htmr
  refine ⟨fun n rest hn hstrobes => ?seen, fun rest hstrobes => ?timesOut,
    fun j n rest hj hceil hstrobes => ⟨?waits, remainder_toNat hceil.le⟩⟩
  case seen =>
    have hleft := remainder_toNat hn.le
    have hshape : s.strobeSeen n rest =
        { s with
          tmr := remainder s.build n, strobes := rest
          trace := s.trace ++ failedPolls n ++ [.poll true] } := by
      rw [State.strobeSeen, s.tmr_sub_eq_remainder n htmr, List.append_assoc]
    rw [← htmr] at hn
    have hmoves := blockMoves_strobeSeen hrun hstrobes hn
    have hok := State.strobeSeen_phaseOk (rest := rest) hn
    rw [hshape] at hmoves hok
    refine ⟨hmoves, hok, ?_, ?_, ?_⟩ <;> dsimp only <;> rw [htmr] at hn <;> omega
  case timesOut =>
    have hpos := s.ceil_toNat_pos
    rw [← htmr] at hstrobes hpos ⊢
    have hmoves := blockMoves_timesOut hrun hstrobes hpos
    have hzero : s.tmr - BitVec.ofNat 16 s.tmr.toNat = 0 := by bv_omega
    rw [State.pollsFailed, hzero] at hmoves
    have hfailed := State.phaseOk_of_tmr_zero
      (p := { s with tmr := 0, strobes := rest, trace := s.trace ++ failedPolls s.tmr.toNat }) rfl
    exact ⟨hmoves, hfailed, by rw [hmoves, State.endPhase_timeout hfailed]⟩
  case waits =>
    have hsplit : s.strobes = List.replicate j false ++ (List.replicate (n - j) false ++ rest) := by
      rw [hstrobes, ← List.append_assoc, List.replicate_append_replicate, Nat.add_sub_cancel' hj]
    rw [blockMoves_failedPolls hrun hsplit (by rwa [htmr]), State.pollsFailed,
      s.tmr_sub_eq_remainder j htmr]

/-! ### The data leg and the ack pulse (R112 to R114) -/

theorem State.timeoutMarked_eq (s : State) :
    s.timeoutMarked =
      { s with
        status := if s.tmr = 0 then { s.status with timeout := true } else s.status } := by
  by_cases h : s.tmr = 0
  · rw [if_pos h, State.timeoutMarked, State.phaseOk_of_tmr_zero h]
    rfl
  · have hok : s.phaseOk = true := decide_eq_true h
    rw [if_neg h, State.timeoutMarked, if_pos hok]

theorem State.legPerformed_iff (s : State) :
    s.legPerformed = true ↔ s.tmr ≠ 0 ∨ s.build.ackOnTimeout = true := by
  simp [State.legPerformed, State.phaseOk]

/-- Settles O30: by whether the leg is performed, and by the mode. -/
theorem dataLegAndAckPulse : Obligations.DataLegAndAckPulse := by
  unfold Obligations.DataLegAndAckPulse
  intro s
  refine ⟨fun hzero hpulse => ?_, fun hleg => ?_⟩
  · have hskipped : s.legPerformed = false := by
      simp [State.legPerformed, State.phaseOk, hzero, hpulse]
    exact ⟨(State.endExchange_skipped hskipped).trans s.timeoutMarked_eq,
      State.captured_skipped hskipped⟩
  · rw [← s.legPerformed_iff] at hleg
    rw [State.endExchange_performed hleg]
    refine ⟨fun hmode => ⟨?_, State.captured_write hmode⟩, fun hmode b bs hdins => ⟨?_, ?_⟩⟩
    · rw [State.dataLeg_write (by rwa [s.timeoutMarked_eq]), s.timeoutMarked_byteOut,
        s.timeoutMarked_eq]
      simp [State.driveByte, State.pulseAck, State.emit]
    · have hmarked : s.timeoutMarked.dins = b :: bs := by rwa [s.timeoutMarked_eq]
      obtain ⟨hdin, htaken⟩ := State.din_cons hmarked
      rw [State.dataLeg_read (by rwa [s.timeoutMarked_eq]), State.senseByte, hdin, htaken,
        s.timeoutMarked_eq]
      simp [State.pulseAck, State.emit]
    · rw [State.captured_read hmode hleg, (State.din_cons hdins).1]

end Sys2Proof.Machine

/-! A transaction whose first phase sees no strobe, and the second attempt that may follow it
(41_transactions.md R142, R151, 42_dispatch.md R180). -/

namespace Sys2Proof.Machine

/-! ### A write phase without a strobe (40_transfer_primitive.md R114) -/

/-- The state after a write phase that saw no strobe, before its command goes on. -/
def State.unsent (s : State) (rest : List Bool) : State :=
  { s with
    tmr := 0
    strobes := rest
    status := s.status.markTimeout
    dout := if s.build.ackOnTimeout then s.byteOut else s.dout
    ack := if s.build.ackOnTimeout then false else s.ack
    trace := s.trace ++ timedOutWrite s.build s.byteOut }

@[simp] theorem State.unsent_ceil (s : State) (rest : List Bool) : (s.unsent rest).ceil = s.ceil := rfl
@[simp] theorem State.unsent_dins (s : State) (rest : List Bool) : (s.unsent rest).dins = s.dins := rfl

section

variable {s : State} {rest : List Bool}

theorem State.endExchange_timedOutWrite (hzero : s.tmr = 0) (hmode : s.seq.mode = .write) :
    s.endExchange =
      { s with
        status := s.status.markTimeout
        dout := if s.build.ackOnTimeout then s.byteOut else s.dout
        ack := if s.build.ackOnTimeout then false else s.ack
        trace := s.trace ++ if s.build.ackOnTimeout then [.drive s.byteOut, .ackPulse] else [] } := by
  obtain ⟨hskipped, hperformed⟩ := dataLegAndAckPulse s
  cases hpulse : s.build.ackOnTimeout with
  | false =>
    obtain ⟨hend, -⟩ := hskipped hzero hpulse
    simp [hend, hzero, Status.markTimeout]
  | true =>
    obtain ⟨hwrite, -⟩ := hperformed (.inr hpulse)
    obtain ⟨hend, -⟩ := hwrite hmode
    simp [hend, hzero, Status.markTimeout]

theorem State.endPhase_unsent {p : State} (hzero : p.tmr = 0) (hmode : p.seq.mode = .write)
    (hp : p = { s with tmr := 0, strobes := rest, trace := s.trace ++ failedPolls s.ceil.toNat }) :
    p.endPhase = (s.unsent rest).afterExchange false none := by
  have hbyte : p.byteOut = s.byteOut := by
    rw [hp]
    rfl
  have hend : p.endExchange = s.unsent rest := by
    rw [State.endExchange_timedOutWrite hzero hmode, hbyte, hp]
    simp [State.unsent, timedOutWrite, State.ceil]
  rw [State.endPhase, hend, State.phaseOk_of_tmr_zero hzero, State.captured_write hmode]

theorem blockMoves_unsent (hrun : s.seq ≠ .idle) (hmode : s.seq.mode = .write)
    (htmr : s.tmr = s.ceil) (hstrobes : s.strobes = List.replicate s.ceil.toNat false ++ rest) :
    blockMoves s.ceil.toNat s = (s.unsent rest).afterExchange false none := by
  obtain ⟨-, htimesOut, -⟩ := countdownLaws s hrun htmr
  exact (htimesOut rest hstrobes).1.trans (State.endPhase_unsent rfl hmode rfl)

/-! ### The first address phase (41_transactions.md R142, R151) -/

theorem blockMoves_controlUnsent {c : CtlCmd} {ceil : Count} (hseq : s.seq = .control c (.addr 0))
    (htmr : s.tmr = ceil) (hceil : s.ceil = ceil)
    (hstrobes : s.strobes = List.replicate ceil.toNat false ++ rest) :
    blockMoves ceil.toNat s =
      ((s.unsent rest).recordControl (.addr 0)).attnOff.finish false .peerTimeout := by
  subst hceil
  rw [blockMoves_unsent (by simp [hseq]) (by rw [hseq]; rfl) htmr hstrobes,
    (s.unsent rest).afterExchange_control hseq, State.afterControlPhase_abort]

theorem blockMoves_monitorUnsent {c : MonCmd} {ceil : Count} (hseq : s.seq = .monitor c (.addr 0))
    (htmr : s.tmr = ceil) (hceil : s.ceil = ceil)
    (hstrobes : s.strobes = List.replicate ceil.toNat false ++ rest) :
    blockMoves ceil.toNat s =
      ((s.unsent rest).recordMonitor (.addr 0)).markTof.attnOff.endMonitor c .peerTimeout := by
  subst hceil
  rw [blockMoves_unsent (by simp [hseq]) (by rw [hseq]; rfl) htmr hstrobes,
    (s.unsent rest).afterExchange_monitor hseq]
  exact State.afterMonitorAddr_abort _ c

end

theorem State.endMonitor_failsQuiet {u : State} {c : MonCmd} (cause : ErrCode)
    (hretries : c.retries = false) (htof : u.tof = true) (hq : u.q = true) :
    u.endMonitor c cause = u.finish false cause := by
  obtain ⟨h, -⟩ | ⟨-, h, -⟩ | ⟨-, -, -, h⟩ | ⟨-, h, -⟩ := u.endMonitor_cases c cause
  · cases htof.symm.trans h
  · cases hretries.symm.trans h
  · exact h
  · cases hq.symm.trans h

theorem State.endMonitor_retries {u : State} {c : MonCmd} (cause : ErrCode)
    (hretries : c.retries = true) (htof : u.tof = true) (hq : u.q = true) :
    u.endMonitor c cause = u.startMonitor c false := by
  obtain ⟨h, -⟩ | ⟨-, -, -, h⟩ | ⟨-, -, h, -⟩ | ⟨-, h, -⟩ := u.endMonitor_cases c cause
  · cases htof.symm.trans h
  · exact h
  · cases hretries.symm.trans h
  · cases hq.symm.trans h

theorem status_timedOut :
    (Status.accepted.markTimeout).finished false .peerTimeout = statusTimeout := rfl

/-- Settles O40: the accept starts address phase 0, whose timeout ends the transaction. -/
theorem firstPhaseTimeoutAborts : Obligations.FirstPhaseTimeoutAborts := by
  unfold Obligations.FirstPhaseTimeoutAborts
  intro s rest hready hstrobes
  obtain ⟨-, ⟨hdrive, -⟩, -⟩ := id hready
  refine ⟨?ctrl, ?mon, ?monQ⟩
  case ctrl =>
    have hmoves := blockMoves_controlUnsent (s := (s.accepted .ctrl).latch.startControl .ctrl)
      (rest := rest) rfl rfl rfl hstrobes
    have hbyte : ((s.accepted .ctrl).latch.startControl .ctrl).byteOut = byteOf s.msgAddr 0 := rfl
    refine ⟨_, ⟨⟨_, exec_ctrl_starts hready, hmoves⟩, ?_⟩, ?_⟩ <;>
      simp [State.unsent, status_timedOut, LinesDefault, hdrive, hbyte]
  case mon =>
    have hmoves := blockMoves_monitorUnsent
      (s := (s.accepted .mon).latch.startMonitor .mon false) (rest := rest) rfl rfl rfl hstrobes
    have hbyte : ((s.accepted .mon).latch.startMonitor .mon false).byteOut = byteOf s.msgAddr 0 := rfl
    rw [State.endMonitor_fails _ rfl rfl] at hmoves
    refine ⟨_, ⟨⟨_, exec_mon_starts hready, hmoves⟩, ?_⟩, ?_⟩ <;>
      simp [State.unsent, status_timedOut, LinesDefault, hdrive, hbyte]
  case monQ =>
    have hmoves := blockMoves_monitorUnsent
      (s := (s.accepted .monQ).latch.startMonitor .monQ true) (rest := rest) rfl rfl rfl hstrobes
    have hbyte : ((s.accepted .monQ).latch.startMonitor .monQ true).byteOut = byteOf s.msgAddr 0 := rfl
    rw [State.endMonitor_failsQuiet _ rfl rfl rfl] at hmoves
    refine ⟨_, ⟨⟨_, exec_monQ_starts hready, hmoves⟩, ?_⟩, ?_⟩ <;>
      simp [State.unsent, status_timedOut, LinesDefault, hdrive, hbyte]

/-! ### The second attempt (42_dispatch.md R180) -/

theorem exec_retrying_starts {i : Instr} {s : State} (hready : TransactionReady s)
    (hi : i = .monRetry ∨ (∃ e, i = .fwd e) ∧ s.msgDir = .monitor) :
    ∃ c, c.retries = true ∧ exec i s = .next ((s.accepted i).latch.startMonitor c true) := by
  obtain rfl | ⟨⟨e, rfl⟩, hdir⟩ := hi
  · exact ⟨.monRetry, rfl, exec_monRetry_starts hready⟩
  · exact ⟨.fwd e, rfl, exec_fwd_monitor_starts hready hdir e⟩

/-- The start of the second attempt after a first one that saw no strobe in its first phase. -/
def State.retried (s : State) (c : MonCmd) (rest : List Bool) : State :=
  ((s.unsent rest).recordMonitor (.addr 0)).markTof.attnOff.startMonitor c false

@[simp] theorem State.retried_ceil (s : State) (c : MonCmd) (rest : List Bool) :
    (s.retried c rest).ceil = s.ceil := by simp [State.retried]

@[simp] theorem State.retried_dins (s : State) (c : MonCmd) (rest : List Bool) :
    (s.retried c rest).dins = s.dins := by simp [State.retried]

theorem blockMoves_retried {s : State} {c : MonCmd} {ceil : Count} {waits : List Nat}
    {rest : List Bool} {reply more : List Byte} (hretries : c.retries = true)
    (hseq : s.seq = .monitor c (.addr 0)) (hq : s.q = true) (htmr : s.tmr = ceil)
    (hceil : s.ceil = ceil) (hreply : reply.length ≤ 8) (hlen : waits.length = 6 + reply.length)
    (hwaits : ∀ n ∈ waits, n < ceil.toNat)
    (hstrobes : s.strobes = List.replicate ceil.toNat false ++ (strobesAfter waits ++ rest))
    (hdins : s.dins = BitVec.ofNat 8 reply.length :: reply ++ more) :
    ∃ tmr, blockMoves (ceil.toNat + (waits.map (· + 1)).sum) s =
      (s.retried c (strobesAfter waits ++ rest)).monitorDone waits reply rest more tmr := by
  subst hceil
  have hquiet : ((s.unsent (strobesAfter waits ++ rest)).recordMonitor
      (.addr 0)).markTof.attnOff.q = true := hq
  have first : blockMoves s.ceil.toNat s = s.retried c (strobesAfter waits ++ rest) := by
    rw [blockMoves_monitorUnsent hseq htmr rfl hstrobes,
      State.endMonitor_retries _ hretries rfl hquiet]
    rfl
  rw [blockMoves_add, first]
  exact blockMoves_monitor (c := c) rfl rfl rfl hreply hlen (by rwa [State.retried_ceil]) rfl
    (by rwa [State.retried_dins])

/-- Settles O41: the quiet attempt is aborted, and the non-quiet one delivers the reply. -/
theorem retrySucceedsAfterOneFailure : Obligations.RetrySucceedsAfterOneFailure := by
  unfold Obligations.RetrySucceedsAfterOneFailure
  intro i s waits rest reply more hready hi hreply hlen hwaits hstrobes hdins
  obtain ⟨c, hretries, hexec⟩ := exec_retrying_starts hready hi
  rw [List.append_assoc] at hstrobes
  have hbyte : ((s.accepted i).latch.startMonitor c true).byteOut = byteOf s.msgAddr 0 := rfl
  have hstatus : (Status.accepted.markTimeout).finished true .none =
      { statusSuccess with timeout := true } := rfl
  obtain ⟨tmr, hmoves⟩ := blockMoves_retried (s := (s.accepted i).latch.startMonitor c true) hretries
    rfl rfl rfl rfl hreply hlen hwaits hstrobes hdins
  refine ⟨_, _, hexec, hmoves, ?_⟩
  simp [State.monitorDone, State.retried, State.unsent, LinesDefault, hbyte, hstatus,
    getElem_storeFrom]

end Sys2Proof.Machine

/-! The polls a command has left, which each move of the block reduces (30_encoding.md R99,
70_reset_and_hazards.md R260). -/

namespace Sys2Proof.Machine

/-! ### The polls left -/

/-- How many phases the running command can at most begin yet; a retrying command's first attempt, the quiet
one, can be followed by a whole transaction. -/
def State.phasesLeft (s : State) : Nat :=
  match s.seq with
  | .idle | .xfer _ => 0
  | .control _ ph => 12 - ph.slot.val
  | .monitor c ph => (if c.retries && s.q then 27 else 13) - ph.slot.val

/-- How many polls the running command can at most make yet. -/
def State.pollsLeft (s : State) : Nat :=
  if s.seq = .idle then 0 else s.phasesLeft * s.ceil.toNat + s.tmr.toNat

section

variable {s t u e : State}

theorem State.phasesLeft_control {c : CtlCmd} {ph : CtlPhase} (h : s.seq = .control c ph) :
    s.phasesLeft = 12 - ph.slot.val := by
  rw [State.phasesLeft, h]

theorem State.phasesLeft_monitor {c : MonCmd} {ph : MonPhase} (h : s.seq = .monitor c ph) :
    s.phasesLeft = (if c.retries && s.q then 27 else 13) - ph.slot.val := by
  rw [State.phasesLeft, h]

theorem State.pollsLeft_idle (h : s.seq = .idle) : s.pollsLeft = 0 := if_pos h

theorem State.pollsLeft_running (h : s.seq ≠ .idle) :
    s.pollsLeft = s.phasesLeft * s.ceil.toNat + s.tmr.toNat := if_neg h

theorem State.pollsLeft_startPhase (s : State) {place : Seq} (h : place ≠ .idle) :
    (s.startPhase place).pollsLeft = ((s.startPhase place).phasesLeft + 1) * s.ceil.toNat := by
  rw [State.pollsLeft_running (s := s.startPhase place) h, Nat.succ_mul]
  rfl

theorem State.pollsLeft_startControl (s : State) (c : CtlCmd) :
    (s.startControl c).pollsLeft = 13 * s.ceil.toNat :=
  State.pollsLeft_startPhase _ nofun

theorem State.pollsLeft_startMonitor (s : State) (c : MonCmd) (quiet : Bool) :
    (s.startMonitor c quiet).pollsLeft = (if c.retries && quiet then 28 else 14) * s.ceil.toNat := by
  have hphases : (s.startMonitor c quiet).phasesLeft + 1 = if c.retries && quiet then 28 else 14 := by
    rw [State.phasesLeft_monitor (c := c) (ph := .addr 0) rfl]
    show (if c.retries && quiet then 27 else 13) - 0 + 1 = _
    split <;> rfl
  rw [← hphases]
  exact State.pollsLeft_startPhase _ nofun

/-! ### One move of the block -/

/-- While a command runs the countdown is not used up, and a command that has ended has done so by the
normal end or by a reject (60_exceptions.md R221, R222). -/
structure RunsOrEnded (s : State) : Prop where
  counting : s.seq ≠ .idle → 1 ≤ s.tmr.toNat
  ended : s.seq = .idle → s.status.busy = false ∧ s.status.done = true

theorem runsOrEnded_finish (s : State) (ok : Bool) (code : ErrCode) :
    RunsOrEnded (s.finish ok code) := ⟨fun hrun => absurd rfl hrun, fun _ => ⟨rfl, rfl⟩⟩

theorem runsOrEnded_reject (s : State) (code : ErrCode) : RunsOrEnded (s.reject code) :=
  ⟨fun hrun => absurd rfl hrun, fun _ => ⟨rfl, rfl⟩⟩

theorem runsOrEnded_startPhase (s : State) {place : Seq} (h : place ≠ .idle) :
    RunsOrEnded (s.startPhase place) := ⟨fun _ => s.ceil_toNat_pos, fun hidle => absurd hidle h⟩

/-- A move from `s` to `t` uses up polls. -/
structure Progress (s t : State) : Prop extends RunsOrEnded t where
  fewer : t.pollsLeft < s.pollsLeft

theorem State.pollsLeft_pos (hrun : s.seq ≠ .idle) (hpos : 1 ≤ s.tmr.toNat) : 0 < s.pollsLeft := by
  rw [State.pollsLeft_running hrun]
  omega

theorem progress_finish (hrun : s.seq ≠ .idle) (hpos : 1 ≤ s.tmr.toNat) (ok : Bool) (code : ErrCode) :
    Progress s (u.finish ok code) where
  toRunsOrEnded := runsOrEnded_finish u ok code
  fewer := by
    rw [State.pollsLeft_idle (s := u.finish ok code) rfl]
    exact State.pollsLeft_pos hrun hpos

theorem progress_startPhase {place : Seq} (hrun : s.seq ≠ .idle) (hpos : 1 ≤ s.tmr.toNat)
    (hplace : place ≠ .idle) (hceil : u.ceil = s.ceil)
    (hphases : (u.startPhase place).phasesLeft + 1 ≤ s.phasesLeft) :
    Progress s (u.startPhase place) where
  toRunsOrEnded := runsOrEnded_startPhase u hplace
  fewer := by
    rw [u.pollsLeft_startPhase hplace, State.pollsLeft_running hrun, hceil]
    exact (Nat.mul_le_mul_right _ hphases).trans_lt (Nat.lt_add_of_pos_right hpos)

theorem State.failedPoll_progress (hrun : s.seq ≠ .idle) (hpos : 1 ≤ s.tmr.toNat)
    (hcount : s.tmr - 1 ≠ 0) : Progress s (s.strobeTaken.emit (.poll false)).countDown := by
  obtain ⟨l, n, htaken⟩ := s.strobeTaken_shape
  rw [htaken]
  refine ⟨⟨fun _ => ?_, fun hidle => absurd hidle hrun⟩, ?_⟩
  · show 1 ≤ (s.tmr - 1).toNat
    bv_omega
  · have hfewer : (s.tmr - 1).toNat < s.tmr.toNat := by bv_omega
    rw [State.pollsLeft_running hrun, State.pollsLeft_running (by exact hrun)]
    exact Nat.add_lt_add_left hfewer _

theorem PhaseEnd.ceil_eq {ok : Bool} {v : Option Byte} (h : PhaseEnd s e ok v) : e.ceil = s.ceil := by
  obtain ⟨_, _, _, _, _, _, _, _, rfl⟩ := h.shape
  rfl

theorem ControlStep.makesProgress {c : CtlCmd} {ph : CtlPhase} (hmove : ControlStep s c ph t)
    (hseq : s.seq = .control c ph) (hpos : 1 ≤ s.tmr.toNat) : Progress s t := by
  have hrun : s.seq ≠ .idle := by simp [hseq]
  cases hmove with
  | waits _ hcount => exact State.failedPoll_progress hrun hpos hcount
  | aborts | ends => exact progress_finish hrun hpos _ _
  | goesOn e ok v next hend hnext =>
    have hslot := (CtlPhase.next_slot hnext).1
    refine progress_startPhase hrun hpos nofun hend.ceil_eq ?_
    rw [State.phasesLeft_control hseq, State.phasesLeft_control (c := c) (ph := next) rfl]
    omega

theorem MonitorStep.makesProgress {c : MonCmd} {ph : MonPhase} (hmove : MonitorStep s c ph t)
    (hseq : s.seq = .monitor c ph) (hpos : 1 ≤ s.tmr.toNat) : Progress s t := by
  have hrun : s.seq ≠ .idle := by simp [hseq]
  have hphases := State.phasesLeft_monitor hseq
  cases hmove with
  | waits _ hcount => exact State.failedPoll_progress hrun hpos hcount
  | succeeds | failsQuiet | fails => exact progress_finish hrun hpos _ _
  | goesOn e u ok v next hend hgo =>
    have hslot := hgo.next_slot
    have hkept : u.ceil = s.ceil ∧ u.q = s.q := by
      refine ⟨?_, ?_⟩
      · obtain ⟨_, _, _, _, _, rfl⟩ := hgo.shape
        exact hend.ceil_eq
      · obtain ⟨_, _, _, _, _, _, _, _, rfl⟩ := hend.shape
        obtain ⟨_, _, _, _, _, rfl⟩ := hgo.shape
        rfl
    obtain ⟨hceil, hq⟩ := hkept
    refine progress_startPhase hrun hpos nofun hceil ?_
    have hnext : (u.startPhase (.monitor c next)).phasesLeft =
        (if c.retries && s.q then 27 else 13) - next.slot.val := by
      rw [State.phasesLeft_monitor (c := c) (ph := next) rfl, ← hq]
      rfl
    rw [hphases, hnext]
    split <;> omega
  | retries e u ok v cause hend hlast htof hretries hq =>
    obtain ⟨hkept, -⟩ := hlast.attempt_kept hend
    have hceil : u.ceil = s.ceil := by
      obtain ⟨_, _, _, _, _, _, rfl⟩ := hlast.shape
      exact hend.ceil_eq
    have hquiet : (c.retries && s.q) = true := by rw [hretries, ← hkept, hq]; rfl
    rw [hquiet, if_pos rfl] at hphases
    refine ⟨runsOrEnded_startPhase _ nofun, ?_⟩
    rw [u.pollsLeft_startMonitor, State.pollsLeft_running hrun, hphases, hceil, Bool.and_false,
      if_neg Bool.false_ne_true]
    exact (Nat.mul_le_mul_right _ (by omega)).trans_lt (Nat.lt_add_of_pos_right hpos)

theorem BlockStep.makesProgress (hmove : BlockStep s t) (hrun : s.seq ≠ .idle)
    (hpos : 1 ≤ s.tmr.toNat) : Progress s t := by
  cases hmove with
  | idle hseq => exact absurd hseq hrun
  | xferWaits _ _ _ hcount => exact State.failedPoll_progress hrun hpos hcount
  | xferEnds m e ok v =>
    unfold State.endXfer
    split <;> exact progress_finish hrun hpos _ _
  | control c ph t hseq hmove => exact hmove.makesProgress hseq hpos
  | monitor c ph t hseq hmove => exact hmove.makesProgress hseq hpos

/-! ### Every command ends (70_reset_and_hazards.md R260) -/

/-- After `p` moves, each of them a poll, the command that runs in `s` has ended. -/
structure EndsAfter (p : Nat) (s : State) : Prop where
  started : s.seq ≠ .idle → 1 ≤ p
  idle : (blockMoves p s).seq = .idle
  ended : (blockMoves p s).status.busy = false ∧ (blockMoves p s).status.done = true
  emits : Emits p s (blockMoves p s)

theorem RunsOrEnded.endsAfter (h : RunsOrEnded s) : ∃ p ≤ s.pollsLeft, EndsAfter p s := by
  induction hleft : s.pollsLeft using Nat.strong_induction_on generalizing s with
  | _ n ih =>
    by_cases hidle : s.seq = .idle
    · exact ⟨0, Nat.zero_le n, fun hrun => absurd hidle hrun, hidle, h.ended hidle, .refl s⟩
    · obtain ⟨hlater, hfewer⟩ := (blockStep s).makesProgress hidle (h.counting hidle)
      obtain ⟨p, hp, hends⟩ := ih _ (hleft ▸ hfewer) hlater rfl
      have hpoll := ((blockStep s).emits hidle).trans hends.emits
      rw [Nat.add_comm] at hpoll
      exact ⟨p + 1, by omega, fun _ => Nat.le_add_left 1 p, hends.idle, hends.ended, hpoll⟩

/-- What the accept of `i` in `s` leaves has its polls within the bound. -/
structure StartsWithin (i : Instr) (s t : State) : Prop extends RunsOrEnded t where
  bound : t.pollsLeft ≤ pollBound i s.msgDir s.ceil.toNat

theorem startsWithin_idle {i : Instr} (hidle : t.seq = .idle) (h : RunsOrEnded t) :
    StartsWithin i s t := ⟨h, by rw [State.pollsLeft_idle hidle]; exact Nat.zero_le _⟩

theorem startsWithin_accept {i : Instr} {check : Option ErrCode} {rule : State → State}
    (hidle : s.status.busy = false) (h : s.accept i check rule = .next t)
    (hrule : StartsWithin i s (rule (s.accepted i))) : StartsWithin i s t := by
  obtain ⟨hbusy, -⟩ | ⟨-, code, -, rfl⟩ | ⟨-, -, rfl⟩ := State.accept_cases h
  · cases hidle.symm.trans hbusy
  · exact startsWithin_idle rfl (runsOrEnded_reject _ code)
  · exact hrule

theorem startsWithin_control {i : Instr} (c : CtlCmd)
    (hbound : pollBound i s.msgDir s.ceil.toNat = 13 * s.ceil.toNat) :
    StartsWithin i s ((s.accepted i).latch.startControl c) :=
  ⟨runsOrEnded_startPhase _ nofun, by rw [State.pollsLeft_startControl, hbound]; rfl⟩

theorem startsWithin_monitor {i : Instr} (c : MonCmd) (quiet : Bool)
    (hbound : pollBound i s.msgDir s.ceil.toNat =
      (if c.retries && quiet then 28 else 14) * s.ceil.toNat) :
    StartsWithin i s ((s.accepted i).latch.startMonitor c quiet) :=
  ⟨runsOrEnded_startPhase _ nofun, by rw [State.pollsLeft_startMonitor, hbound]; rfl⟩

theorem exec_startsWithin {i : Instr} (hidle : s.status.busy = false) (h : exec i s = .next t) :
    StartsWithin i s t := by
  cases i with
  | xfer m =>
    rw [exec_xfer] at h
    refine startsWithin_accept hidle h ⟨runsOrEnded_startPhase _ nofun, ?_⟩
    rw [State.pollsLeft_startPhase _ (place := .xfer m) nofun]
    exact (Nat.one_mul _).le
  | setdir d =>
    rw [exec_setdir] at h
    refine startsWithin_accept hidle h ?_
    cases d <;> exact startsWithin_idle rfl (runsOrEnded_finish _ _ _)
  | setattn level =>
    rw [exec_setattn] at h
    refine startsWithin_accept hidle h ?_
    cases level <;> exact startsWithin_idle rfl (runsOrEnded_finish _ _ _)
  | diagRd sel =>
    rw [exec_diagRd] at h
    refine startsWithin_accept hidle h ?_
    split <;> exact startsWithin_idle rfl (runsOrEnded_finish _ _ _)
  | ctrl =>
    rw [exec_ctrl] at h
    exact startsWithin_accept hidle h (startsWithin_control .ctrl rfl)
  | mon =>
    rw [exec_mon] at h
    exact startsWithin_accept hidle h (startsWithin_monitor .mon false rfl)
  | monQ =>
    rw [exec_monQ] at h
    exact startsWithin_accept hidle h (startsWithin_monitor .monQ true rfl)
  | monRetry =>
    rw [exec_monRetry] at h
    exact startsWithin_accept hidle h (startsWithin_monitor .monRetry true rfl)
  | fwd entry =>
    cases hdir : s.msgDir with
    | monitor =>
      rw [exec_fwd_monitor entry s hdir] at h
      exact startsWithin_accept hidle h
        (startsWithin_monitor (.fwd entry) true (by rw [hdir]; rfl))
    | control =>
      rw [exec_fwd_control entry s hdir] at h
      exact startsWithin_accept hidle h (startsWithin_control (.fwd entry) (by rw [hdir]; rfl))

/-- Settles O36: the accept leaves at most the bound of polls, and each move makes one of them. -/
theorem everyCommandEnds : Obligations.EveryCommandEnds := by
  unfold Obligations.EveryCommandEnds
  intro i s hidle
  obtain ⟨t0, hexec⟩ := exec_next i s
  obtain ⟨hstart, hbound⟩ := exec_startsWithin hidle hexec
  obtain ⟨p, hp, hends⟩ := hstart.endsAfter
  obtain ⟨hbusy, hdone⟩ := hends.ended
  obtain ⟨events, htrace, -, hpolls⟩ := (commandStep_of_exec hexec).emits.trans hends.emits
  refine ⟨t0, p, hexec, hp.trans hbound, hends.started, hends.idle, hbusy, hdone, ?_⟩
  rw [htrace, countEvents, List.countP_append]
  exact congrArg _ (hpolls.trans (Nat.zero_add p))

/-! ### The client's wait (30_encoding.md R99) -/

theorem step_await_done (hagenda : s.agenda = [.await]) (hdone : s.status.done = true) :
    step s = .next (s.withAgenda []) := by
  rw [step_agenda_cons hagenda]
  exact congrArg _ (if_pos hdone)

theorem step_await_waits (hagenda : s.agenda = [.await]) (hdone : s.status.done = false) :
    step s = .next ((s.withAgenda []).blockMove.withAgenda [.await]) := by
  rw [step_agenda_cons hagenda]
  exact congrArg _ (if_neg (Bool.eq_false_iff.mp hdone))

/-- Settles O60: each step of the wait uses up polls of the running command, until it has ended. -/
theorem waitEnds : Obligations.WaitEnds := by
  unfold Obligations.WaitEnds
  intro s hinv hagenda hstarted
  induction hleft : s.pollsLeft using Nat.strong_induction_on generalizing s with
  | _ n ih =>
    by_cases hidle : s.seq = .idle
    · have hdone : s.status.done = true := hstarted.resolve_left (absurd hidle)
      exact ⟨1, _, runs_succ (step_await_done hagenda hdone) (runs_zero _), rfl, hdone, hidle⟩
    · have hdone : s.status.done = false := (hinv.busy_fields (hinv.busy_iff.mpr hidle)).1
      have hpos : 1 ≤ s.tmr.toNat := (hinv.countdown hidle).1
      have hstep := step_await_waits hagenda hdone
      obtain ⟨hlater, hfewer⟩ := (blockStep (s.withAgenda [])).makesProgress hidle hpos
      obtain ⟨k, t, hruns, hend⟩ := ih _ (hleft ▸ hfewer) _ (invariantKeptByEveryStep _ _ hinv hstep)
        rfl (Decidable.or_iff_not_imp_left.mpr fun hend => (hlater.ended (not_not.mp hend)).2) rfl
      exact ⟨k + 1, t, runs_succ hstep hruns, hend⟩

end

end Sys2Proof.Machine
